-- ==== Sys2Proof/Word.lean ====
section
/-!
DEFINITION. The plain words of the model: bytes and 16-bit fields of messages, port, resource and binder numbers,
fixed tables, and the stamp comparison of the Introduction.
-/
namespace Sys2Proof

/-- One byte of a message, a marker or a segment. -/
abbrev Byte := BitVec 8

/-- One 16-bit field: frame numbers, stamps, tags, counters. -/
abbrev Half := BitVec 16

/-- A port of the engine, 0 to 11. -/
abbrev PortNo := Fin 12

/-- A binder group, 0 to 7. -/
abbrev BinderNo := Fin 8

/-- A claimed resource: the binder groups 0 to 7 and ACCESS, 8 (2.2). -/
abbrev ResourceNo := Fin 9

/-- The 16 samples of one channel in one integration frame, signed hundredths of a volt (R157). -/
abbrev Samples := Vector Int 16

/-- The entry of a fixed table. -/
def tget {α : Type} {n : Nat} (t : Vector α n) (i : Fin n) : α := t[i.val]'i.isLt

/-- The table with one entry replaced. -/
def tput {α : Type} {n : Nat} (t : Vector α n) (i : Fin n) (a : α) : Vector α n := t.set i.val a i.isLt

/-- The table with a function applied to every entry. -/
def tmap {α β : Type} {n : Nat} (f : α → β) (t : Vector α n) : Vector β n :=
  ⟨⟨t.toArray.toList.map f⟩, by simp⟩

theorem tget_tmap {α β : Type} {n : Nat} (f : α → β) (t : Vector α n) (i : Fin n) : tget (tmap f t) i = f (tget t i) := by
  simp [tget, tmap]

@[simp] theorem tget_tput_same {α : Type} {n : Nat} (t : Vector α n) (i : Fin n) (a : α) : tget (tput t i a) i = a := by
  simp [tget, tput]

theorem tget_tput_ne {α : Type} {n : Nat} (t : Vector α n) {i j : Fin n} (a : α) (h : i ≠ j) :
    tget (tput t i a) j = tget t j := by
  have : i.val ≠ j.val := fun e => h (Fin.ext e)
  simp [tget, tput, this]

/-- Every port number, ascending. -/
def allPorts : List PortNo := [0, 1, 2, 3, 4, 5, 6, 7, 8, 9, 10, 11]

/-- The table of a value for each port. -/
def portTable {α : Type} (f : PortNo → α) : Vector α 12 := ⟨⟨allPorts.map f⟩, by simp [allPorts]⟩

/-- Every binder group, ascending. -/
def allBinders : List BinderNo := [0, 1, 2, 3, 4, 5, 6, 7]

/-- Every resource, ascending. -/
def allResources : List ResourceNo := [0, 1, 2, 3, 4, 5, 6, 7, 8]

/-- Resource 8, the cabinet test access bus. -/
def accessBus : ResourceNo := 8

/-- The resource of a binder group: the same number (2.2). -/
def binderResource (b : BinderNo) : ResourceNo := b.castSucc

/-- Introduction, stamp comparison: a is earlier than b when (b - a) mod 65536 lies in 1 to 32767. -/
def stampEarlier (a b : Half) : Bool := let d := (b - a).toNat; decide (1 ≤ d ∧ d ≤ 32767)

/-- R23: share epoch a is earlier than share epoch b when (b - a) mod 8192 lies in 1 to 4095. -/
def epochEarlier (a b : Half) : Bool := let d := (b - a).toNat % 8192; decide (1 ≤ d ∧ d ≤ 4095)

/-- A 16-bit counter that stops at 65535 (R18, R106). -/
def satInc (c : Half) : Half := if c = 0xFFFF#16 then c else c + 1

/-- A 16-bit counter that adds n and stops at 65535 (R104, R106). -/
def satAdd (c : Half) (n : Nat) : Half := BitVec.ofNat 16 (min 65535 (c.toNat + n))

/-- The value nearest to n in lo to hi (Introduction, "clamped"). -/
def clampNat (lo hi n : Nat) : Nat := max lo (min hi n)

end Sys2Proof
end

