-- ==== Sys2Proof/Syntax.lean ====
section
/-!
DEFINITION. The commands of the Colvek 3120: one constructor of `Instr` per row of spec/opcode_table.json, in the
table's order, with the row's operands. A command is an event at the engine's edge (a character error, a message end,
a frame marker, an edge of an input pin), a message handed to the block that takes it, or one of the engine's own
named events. The table gives no operands and no bits; the operands are the model's (log entry 2).
-/
namespace Sys2Proof

/-- A complete message as the receiver has collected it (R2): the start character has been taken, the payload holds as
many bytes as the length byte says, and two check bytes have followed it. -/
structure RxMessage where
  kind : Byte
  dest : Byte
  source : Byte
  payload : List Byte
  check : Half
deriving DecidableEq, Repr

/-- What the engine's converters read at one frame advance: one sample of the cabinet bus voltage (R167), and the 16
samples of each measuring channel in the frame that ends there (R157). The samples are looked at only when a
calibration attempt or a step integration ends at that frame advance. -/
structure Readings where
  bus : Half
  main : Samples
  check : Samples
deriving DecidableEq, Repr

/-- What a foreign-voltage comparator has seen in one of its 200 microsecond windows: the peak magnitudes of its three
voltages, in hundredths of a volt, AC or DC (R156). -/
structure LinePeaks where
  tipGround : Nat
  ringGround : Nat
  tipRing : Nat
deriving DecidableEq, Repr

/-- What a ground-fault comparator senses: the DC resistance from each wire to ground, in ohms (R156). -/
structure WireResistances where
  tip : Nat
  ring : Nat
deriving DecidableEq, Repr

/-- The fields of a CONFIGURE ENGINE after tag and form (R185). -/
structure EngineFields where
  fitted : Half
  weight : Byte
  reserved : Byte
  fvLimit : Half
  irThreshold : Half
  kmcap : Byte
  balanceLimit : Byte
  va : Half
  vb : Half
  vc : Half
  b1 : Half
  b2 : Half
  pBase : Half
  pTest : Half
  pSrc : Half
deriving DecidableEq, Repr

/-- The fields of a CONFIGURE PORT after tag and form (R185). -/
structure PortFields where
  port : Byte
  cls : Byte
  weight : Byte
  limit : Half
  binder : Byte
  linkMode : Byte
  linkPriority : Byte
  fvdMode : Byte
  fvdPriority : Byte
  gfltMode : Byte
  gfltPriority : Byte
  pServ : Half
  pIso : Half
deriving DecidableEq, Repr

/-- The commands, in the order of spec/opcode_table.json. `src` is a message's source address and `tag` its tag. -/
inductive Instr where
  /-- POWER_ON_RESET: RESET returns high; the straps, the comparator outputs (bit p for port p) and the MAINS level
  as they stand at that moment (R178, R122, R166). -/
  | powerOnReset (strap : BitVec 4) (fvd gflt : BitVec 12) (mains : Bool)
  /-- MESSAGE_END: 11 idle bit times have followed a complete message (R13, R14). -/
  | messageEnd (m : RxMessage)
  /-- RX_BYTE_ERROR: a character with a bad stop bit inside a message (R13). -/
  | rxByteError
  /-- RX_LENGTH_ERROR: a length byte above 48, or a character after the second check byte (R13). -/
  | rxLengthError
  /-- RX_SHORT_ERROR: 11 idle bit times before the declared payload and check have arrived (R13). -/
  | rxShortError
  /-- DISCARDING_END: 11 idle bit times in DISCARDING (R13). -/
  | discardingEnd
  /-- TRANSMIT_START: the line has been idle for `idle` bit times, the class gap of the next entry or more (R5). -/
  | transmitStart (idle : Nat)
  /-- TRANSMISSION_COMPLETE: every character has been read back unchanged (R6). -/
  | transmissionComplete
  /-- COLLISION: a character read back differs from the one driven (R7). -/
  | collision
  /-- BACKOFF_END: the line has been idle for `idle` bit times, the backoff wait or more (R8). -/
  | backoffEnd (idle : Nat)
  /-- DEMAND from a peer, handed to the PVU (R24). -/
  | demand (src : Byte) (epoch : Half) (amount weight : Byte)
  /-- SPAN CLAIM from a peer, handed to the PVU (R25). -/
  | spanClaim (src : Byte) (epoch : Half) (start len : Byte)
  /-- LOAD from a peer, handed to the PVU (R26). -/
  | load (src : Byte) (epoch eWant sWant fWant present : Half) (tier : Byte)
  /-- CLAIM from a peer, handed to the PVU (R30, R35, R36). -/
  | claim (src resource : Byte) (stamp : Half)
  /-- HOLD from a peer, handed to the PVU (R30, R35, R37). -/
  | hold (src resource : Byte) (stamp : Half)
  /-- RELEASE from a peer, handed to the PVU (R31). -/
  | release (src resource : Byte)
  /-- VIEW_ENTRY_EXPIRY: the silence of a peer-held view entry reaches 200 (R32). -/
  | viewEntryExpiry (r : ResourceNo)
  /-- SETTLE_END: the settle count of a claim reaches 0 (R35). -/
  | settleEnd (r : ResourceNo)
  /-- HOLD_REFRESH: the refresh count of a HELD claim reaches 64 (R36). -/
  | holdRefresh (r : ResourceNo)
  /-- CLAIM_LAPSE: the unused count of a HELD binder claim reaches 32 (R38). -/
  | claimLapse (b : BinderNo)
  /-- HOLD_OFF_END: the hold-off of a lapsed binder claim ends (R38). -/
  | holdOffEnd (b : BinderNo)
  /-- PORT_DIVISION_COMPLETION: the port division in flight in the AU ends (R51, R81). -/
  | portDivisionCompletion
  /-- STATION_SHARE_COMPLETION: the station share in flight in the AU ends (R51, R73). -/
  | stationShareCompletion
  /-- POWER_SHARE_COMPLETION: the power share in flight in the AU ends (R51, R174). -/
  | powerShareCompletion
  /-- FRAME_MARKER: a marker arrives with its frame number, its 32 status bytes and its check (R58, R185), `elapsed`
  microseconds after the last valid marker (R62), and `readings` are what the converters read at it. -/
  | frameMarker (number : Half) (status : Vector Byte 32) (check : Half) (elapsed : Nat) (readings : Readings)
  /-- FRAME_TIMER_EXPIRY: one timer period has passed with no valid marker (R61). -/
  | frameTimerExpiry (readings : Readings)
  /-- SYNC_LOST: the miss count reaches 3 in RESYNC or SYNC (R67). -/
  | syncLost
  /-- EPOCH_START: a change of F div 8 (R69). -/
  | epochStart
  /-- SHARE_CUT: the share cut of the epoch is due (R72). -/
  | shareCut
  /-- DOWNSTREAM_SEGMENT: a downstream segment arrives with the fields of R59 and its check (R185). -/
  | downstreamSegment (station port len : Byte) (payload : List Byte) (check : Half)
  /-- PACKET_ARRIVAL: the last byte of a packet has been received from a port's transceiver (R97). -/
  | packetArrival (p : PortNo) (data : List Byte)
  /-- DRAIN_END: a port's held count or its drain count reaches 0 (R101). -/
  | drainEnd (p : PortNo)
  /-- LINK_INDICATION: the transceiver reports link up or down (R110). -/
  | linkIndication (p : PortNo) (up : Bool)
  /-- FVD_EDGE: a window of the foreign-voltage comparator ends with these peaks, which may change its output (R156,
  R122, R131). -/
  | fvdEdge (p : PortNo) (peaks : LinePeaks)
  /-- GFLT_EDGE: the ground-fault comparator senses these resistances, which may change its output (R156, R122, R124). -/
  | gfltEdge (p : PortNo) (sensed : WireResistances)
  /-- ISOLATION_EXIT: a port's exit count reaches 64 (R132). -/
  | isolationExit (p : PortNo)
  /-- TEST ORDER, handed to the CSU (R135). -/
  | testOrder (src : Byte) (tag : Half) (port kind priority : Byte) (holdTime : Half)
  /-- TEST CANCEL, handed to the CSU (R151). -/
  | testCancel (src : Byte) (tag : Half)
  /-- TEST_START: selection starts the queue head (R138). -/
  | testStart
  /-- TEST_RESUME: selection resumes the top context (R147). -/
  | testResume
  /-- CLAIM_WAIT_TIMEOUT: the claim wait count of a test in CLAIM reaches 256 (R140). -/
  | claimWaitTimeout
  /-- CALIBRATION_ATTEMPT_END: the fourth frame of a calibration attempt ends with these samples (R158). -/
  | calibrationAttemptEnd (main check : Samples)
  /-- STEP_SETTLE_END: a step's settle count runs out (R143). -/
  | stepSettleEnd
  /-- DISCHARGE_END: the 200 microsecond discharge of a charge-time step ends (R163). -/
  | dischargeEnd
  /-- CHARGE_TIMER_STOP: the main channel reaches 1.00 V at this count of microseconds, or the count is 65535 (R163). -/
  | chargeTimerStop (count : Nat)
  /-- STEP_COMPLETION: a step's integration frame ends with these samples (R143). -/
  | stepCompletion (main check : Samples)
  /-- ACCESS_HOLD_END: the remaining hold of a connected ACCESS test reaches 0 (R145). -/
  | accessHoldEnd
  /-- MAINS_FALL: a falling edge of MAINS (R166, R169). -/
  | mainsFall
  /-- MAINS_RISE: a rising edge of MAINS (R166). -/
  | mainsRise
  /-- POWER_EPOCH_START: a change of F div 64 (R167, R168, R172). -/
  | powerEpochStart
  /-- POWER_EVALUATION: a power evaluation is due (R173). -/
  | powerEvaluation
  /-- CONFIGURE ENGINE, handed to the CSU (R179). -/
  | configureEngine (src : Byte) (tag : Half) (fields : EngineFields)
  /-- CONFIGURE PORT, handed to the CSU (R179). -/
  | configurePort (src : Byte) (tag : Half) (fields : PortFields)
  /-- RESTART, handed to the CSU (R182). -/
  | restart (src : Byte) (tag : Half)
  /-- CLEAR EVENTS with its report number and its pairs of port and condition, handed to the CSU (R127). -/
  | clearEvents (src : Byte) (tag : Half) (report : Byte) (pairs : List (Byte × Byte))
  /-- STATUS QUERY for ENGINE, handed to the CSU (R20, R183). -/
  | statusQueryEngine (src : Byte) (tag : Half) (clear : Byte)
  /-- STATUS QUERY for PORT `index` (R106, R183). -/
  | statusQueryPort (src : Byte) (tag : Half) (index clear : Byte)
  /-- STATUS QUERY for EVENTS (R126, R183). -/
  | statusQueryEvents (src : Byte) (tag : Half)
  /-- STATUS QUERY for TESTS (R153, R183). -/
  | statusQueryTests (src : Byte) (tag : Half)
  /-- STATUS QUERY for LOG entry `index` (R153, R183). -/
  | statusQueryLog (src : Byte) (tag : Half) (index : Byte)
  /-- STATUS QUERY for CLAIMS (R28, R183). -/
  | statusQueryClaims (src : Byte) (tag : Half)
  /-- STATUS QUERY for PEER `index` (R23, R183). -/
  | statusQueryPeer (src : Byte) (tag : Half) (index : Byte)
  /-- MESSAGE_BEGIN: a correctly framed start character arrives (R13). -/
  | messageBegin
  /-- NON_START_CHARACTER: any other character arrives (R13). -/
  | nonStartCharacter
  /-- STATUS QUERY whose selector code is none of the seven (R183). -/
  | statusQueryUnknownSelector (src : Byte) (tag : Half) (selector : Byte)
deriving DecidableEq, Repr

end Sys2Proof
end

