-- ==== Sys2Proof/Decode.lean ====
section
/-!
DEFINITION. Decoding. The engine has no instruction words: spec/opcode_table.json gives no bits for any of its rows,
so no word spells a command (log entry 1). Messages are decoded from their bytes in Machine/Operands.lean.
-/
namespace Sys2Proof

/-- The command a table word spells: none, since no row of the table has bits. -/
def decodeTableWord (_nbits _w : Nat) : Option Instr := none

end Sys2Proof
end

