-- ==== Sys2Proof/Config.lean ====
section
/-!
DEFINITION. What the spec leaves open as a value: free values. Each is an opaque constant applied to the counter
`freeDraws` of State, so nothing can be proved of the value itself (log entry 3).
-/
namespace Sys2Proof.Config

/-- A byte the spec does not state: a field of a status reply whose content is absent (log entry 3). -/
opaque freeByte : Nat → Byte

/-- A 16-bit field the spec does not state: a field of a status reply whose content is absent (log entry 3). -/
opaque freeHalf : Nat → Half

/-- A battery tier 1 to 4 (as 0 to 3) judged while no battery threshold is configured (R168, R177; log entry 4). -/
opaque freeTier : Nat → Fin 4

/-- A choice between two span records of which neither epoch is earlier (R25; log entry 5). -/
opaque freeChoice : Nat → Bool

end Sys2Proof.Config
end

