-- ==== Sys2Proof/Machine/State.lean ====
section
/-!
DEFINITION. The engine's state, block by block as Table 1 of the Introduction names the blocks, the reasons a step can
stop, and the state right after reset. Every field is plain data. INVENTORY.md lists each with its rule.
-/
namespace Sys2Proof.Machine

/-! ### Names -/

/-- 12.1: the engine states, in the order of their codes. -/
inductive EngineState | unconfigured | run | conflict
deriving DecidableEq, Repr

/-- 1.6: the receiver's states. -/
inductive RxState | idle | receiving | discarding
deriving DecidableEq, Repr

/-- 1.4: the transmitter's states. SENDING and BACKOFF name their entry by its enqueue order; BACKOFF holds its wait. -/
inductive TxState
  | idle
  | waitingGap
  | sending (order : Nat)
  | backoff (order wait : Nat)
deriving DecidableEq, Repr

/-- R19: the error kinds. -/
inductive ErrorKind | byte | short | check | length | kind | unexpected | self
deriving DecidableEq, Repr

/-- 2.2: the engine's own part in claiming a resource, in the order of its codes. -/
inductive OwnState | none | waiting | settling | held
deriving DecidableEq, Repr

/-- 4.3: the sync states, in the order of their codes. -/
inductive SyncState | nosync | resync | sync | lost
deriving DecidableEq, Repr

/-- R100: why a port is drained. -/
inductive DrainReason | test | shed
deriving DecidableEq, Repr

/-- 7.2: the port states. DRAINING carries its drain reason, present only there (R108). -/
inductive PortState
  | unfitted
  | inService
  | draining (reason : DrainReason)
  | inTest
  | isolated
  | off
deriving DecidableEq, Repr

/-- R108: where an isolated port goes when its isolation ends. -/
inductive ReturnState | inService | off
deriving DecidableEq, Repr

/-- Introduction: the port classes, in the order of their codes. -/
inductive PortClass | essential | standard | deferrable
deriving DecidableEq, Repr

/-- 8.1: the conditions, in the order of their codes. -/
inductive Condition | link | fvd | gflt
deriving DecidableEq, Repr

/-- R123: the sense modes, in the order of their codes. -/
inductive SenseMode | none | levelHigh | levelLow | rising | falling | both
deriving DecidableEq, Repr

/-- R123: where an edge cell's automatic request stands. -/
inductive RequestState | idle | queued | waitRoom | waitEnd
deriving DecidableEq, Repr

/-- 8.4: the TSQ's answers to an automatic request. -/
inductive AutoAnswer | queued | present | active | full | refused
deriving DecidableEq, Repr

/-- Introduction: the kinds of test, codes 1 to 5. -/
inductive TestKind | fv | ir | cap | full | access
deriving DecidableEq, Repr

/-- R134: what made a queue entry. -/
inductive Origin
  | order
  | cell (p : PortNo) (c : Condition)
deriving DecidableEq, Repr

/-- 9.3: the phases of the running test. EVALUATE, RETURN and DONE are passed through inside one event (R144). -/
inductive Phase | waitPort | claim | drain | calibrate | step | evaluate | connected | done
deriving DecidableEq, Repr

/-- 9.3: the state of a test's port take. -/
inductive Take | sent | waiting | given
deriving DecidableEq, Repr

/-- 9.4: the step kinds. -/
inductive StepKind | voltage | selfCheck | resistance | charge
deriving DecidableEq, Repr

/-- The wires a step measures between: tip and ground, ring and ground, tip and ring. -/
inductive Wires | tg | rg | tr
deriving DecidableEq, Repr

/-- R143: where a step stands. `notBegun`: no step is under way (or the MFE refused its source, R155); `ended`: its
integration frame has ended and its value is due at this very frame advance. -/
inductive StepStage
  | notBegun
  | settling (left : Nat)
  | integrating
  | ended
deriving DecidableEq, Repr

/-- R165: the verdicts, in the order of their codes. -/
inductive Verdict | pass | foreign | lowIr | open | unbalanced
deriving DecidableEq, Repr

/-- R152: the abort causes, codes 1 to 7. -/
inductive AbortCause | order | power | isolated | claimLost | busy | frontEnd | port
deriving DecidableEq, Repr

/-- R152: the report types, codes 0 and 1. -/
inductive ReportType | result | connected
deriving DecidableEq, Repr

/-- R184: the outcomes of an ANSWER, in the order of their codes. -/
inductive AnswerCode
  | accepted | unconfigured | conflict | badKind | noPort | frontEnd | power | isolated | duplicate | queueFull
  | notFound | stale | already | badValue
deriving DecidableEq, Repr

/-- R154: the source of the MFE. -/
inductive Source | off | voltage | current
deriving DecidableEq, Repr

/-- R154: the activity of the MFE; CALIBRATING carries its attempt and its frames. -/
inductive Activity
  | idle
  | calibrating (attempt frames : Nat)
  | selfCheck
  | measuring
deriving DecidableEq, Repr

/-- R163: the charge timer of a charge-time step. -/
inductive ChargeTimer
  | idle
  | discharging
  | charging
  | stopped (count : Nat)
deriving DecidableEq, Repr

/-- R166: the mains states, in the order of their codes. -/
inductive Mains | present | absent | returned
deriving DecidableEq, Repr

/-- 3.2: the kinds of AU request. -/
inductive AuKind | portDivision | stationShare | powerShare
deriving DecidableEq, Repr

/-! ### Records -/

/-- R19: the error set, one membership flag per kind. -/
structure ErrorSet where
  byte : Bool
  short : Bool
  check : Bool
  length : Bool
  kind : Bool
  unexpected : Bool
  self : Bool
deriving DecidableEq, Repr

/-- R165: the fail set. -/
structure FailSet where
  foreign : Bool
  lowIr : Bool
  open' : Bool
  unbalanced : Bool
deriving DecidableEq, Repr

/-- R157, R185: one value of a values list with its flags. -/
structure StepValue where
  value : Int
  overRange : Bool
  ac : Bool
  limit : Bool
deriving DecidableEq, Repr

/-- R152: a result record (and, with type CONNECTED, the report of R145). -/
structure ResultRecord where
  requester : Nat
  tag : Half
  port : PortNo
  kind : TestKind
  type : ReportType
  verdict : Verdict
  fail : FailSet
  values : List StepValue
  cause : Option AbortCause
  start : Half
  finish : Half
deriving DecidableEq, Repr

/-- The messages the engine sends (1.3), with the fields of their payloads. -/
inductive Message
  | demand (epoch : Half) (amount weight : Byte)
  | spanClaim (epoch : Half) (start len : Byte)
  | load (epoch eWant sWant fWant present : Half) (tier : Byte)
  | claim (r : ResourceNo) (stamp : Half)
  | hold (r : ResourceNo) (stamp : Half)
  | release (r : ResourceNo)
  | answer (dest request : Byte) (tag : Half) (outcome : AnswerCode) (position : Byte)
  | statusReply (dest : Byte) (tag : Half) (selector : Byte) (contents : List Byte)
  | testReport (dest : Byte) (result : ResultRecord)
deriving DecidableEq, Repr

/-- What becomes of an entry in SENDING when it collides: the ordinary backoff (R7), a counted drop after an entry to
CONFLICT (R16), or an uncounted drop after a RESTART (R22). -/
inductive CollisionFate | backoff | dropCounted | dropSilent
deriving DecidableEq, Repr

/-- R9: an entry of the transmit queue. `byRestart` marks the entries a RESTART offered (R22). -/
structure TxEntry where
  msg : Message
  order : Nat
  attempt : Nat
  fate : CollisionFate
  byRestart : Bool
deriving DecidableEq, Repr

/-- The Peer Bus Interface (Chapter 1). `ownEnded`: the engine's own message has been driven to its end and its end of
message has not come yet (R13). `idle`: the line's idle time as far as the commands have told it (R1). -/
structure Pbi where
  rx : RxState
  ownEnded : Bool
  tx : TxState
  queue : List TxEntry
  nextOrder : Nat
  idle : Nat
  rxValid : Half
  rxDiscard : Half
  collisions : Half
  txDropped : Half
  errors : ErrorSet
deriving DecidableEq, Repr

/-- 2.1: the demand part of a peer-table entry. -/
structure DemandPart where
  epoch : Half
  demand : Nat
  weight : Nat
  age : Nat
deriving DecidableEq, Repr

/-- 2.1: a span record. -/
structure SpanRecord where
  epoch : Half
  start : Byte
  len : Byte
deriving DecidableEq, Repr

/-- 2.1: the load part of a peer-table entry. -/
structure LoadPart where
  epoch : Half
  eWant : Half
  sWant : Half
  fWant : Half
  present : Half
  tier : Nat
  age : Nat
deriving DecidableEq, Repr

/-- 2.1: an entry of the peer table. -/
structure PeerEntry where
  address : Nat
  demand : Option DemandPart
  spans : List SpanRecord
  load : Option LoadPart
deriving DecidableEq, Repr

/-- R28 and 2.4: a claim-view entry with the engine's own part in claiming the resource. `markedWaiting` is the TSQ's
mark of R38, `holdOff` the hold-off of R38 while it runs. -/
structure ClaimEntry where
  holder : Option Nat
  stamp : Half
  lastRefresh : Half
  silence : Nat
  own : OwnState
  ownStamp : Half
  settle : Nat
  contested : Bool
  refresh : Nat
  unused : Nat
  markedWaiting : Bool
  holdOff : Option Nat
deriving DecidableEq, Repr

/-- The Peer View Unit (Chapter 2). -/
structure Pvu where
  peers : List PeerEntry
  claims : Vector ClaimEntry 9
  accessWanted : Bool
deriving DecidableEq, Repr

/-- R43: a requester of an AU request: its identity (a port number or a station address), demand and weight. -/
structure Requester where
  id : Nat
  demand : Nat
  weight : Nat
deriving DecidableEq, Repr

/-- R43: an AU request. -/
structure AuRequest where
  kind : AuKind
  reference : Half
  requesters : List Requester
  capacity : Nat
  order : List Nat
deriving DecidableEq, Repr

/-- The Allocation Unit (Chapter 3): the computation in flight and one pending request of each kind (R52). -/
structure Au where
  inFlight : Option AuRequest
  pendingPort : Option AuRequest
  pendingShare : Option AuRequest
  pendingPower : Option AuRequest
deriving DecidableEq, Repr

/-- A window: start and length in slots (4.4). -/
structure Window where
  start : Nat
  len : Nat
deriving DecidableEq, Repr

/-- R73: the pending window, ready for its epoch. -/
structure PendingWindow where
  epoch : Nat
  window : Window
deriving DecidableEq, Repr

/-- R80: the outstanding port division: its reference, the usable list and the order list of its eligible ports. -/
structure Division where
  reference : Half
  usable : List Nat
  order : List PortNo
deriving DecidableEq, Repr

/-- R87: an in-flight entry; `payload` is the content of its buffer. -/
structure InFlightEntry where
  port : PortNo
  packet : Half
  index : Nat
  last : Bool
  attempt : Nat
  slot : Nat
  frame : Half
  payload : List Byte
deriving DecidableEq, Repr

/-- R92: a retransmit entry; `payload` is the content of its buffer. -/
structure RetransmitEntry where
  port : PortNo
  packet : Half
  index : Nat
  last : Bool
  attempt : Nat
  payload : List Byte
deriving DecidableEq, Repr

/-- The Uplink Scheduler (Chapters 4 and 5). `timerAdvanced`: the most recent frame advance was a timer expiry (R63).
`shareEpoch`: the F div 8 of the last epoch start made, so that a change can be told (R69). `grantMap` lists the
granted slots, ascending, each with its port; a slot it does not list names no port (R82). `coverage` has one count for
each slot (R74). -/
structure Uls where
  f : Half
  period : Nat
  lastMarker : Option Half
  miss : Nat
  timerAdvanced : Bool
  sync : SyncState
  shareEpoch : Nat
  current : Option Window
  pendingWindow : Option PendingWindow
  shareRef : Option Half
  lastCut : Option Nat
  ownDemand : Nat
  admitted : Nat
  coverage : List Nat
  grantMap : List (Nat × PortNo)
  granted : Nat
  division : Option Division
  rotation : PortNo
  inFlight : List InFlightEntry
  retransmit : List RetransmitEntry
deriving DecidableEq, Repr

/-- R96: a packet record; `buffers` are the contents of the buffers of its unsent segments, in segment order. -/
structure PacketRecord where
  number : Half
  length : Nat
  total : Nat
  remaining : Nat
  admitted : Half
  buffers : List (List Byte)
deriving DecidableEq, Repr

/-- R106: the seven counters of a port. -/
structure PortCounters where
  notInService : Half
  portLimit : Half
  poolEmpty : Half
  segmentLost : Half
  unconfirmed : Half
  discarded : Half
  downstreamDropped : Half
deriving DecidableEq, Repr

/-- The PQM's state of one port: packet queue, next packet number, drain count and counters (R96, R100, R106). -/
structure PqmPort where
  queue : List PacketRecord
  next : Half
  drainCount : Nat
  counters : PortCounters
deriving DecidableEq, Repr

/-- The Port Queue Manager (Chapter 6). -/
structure Pqm where
  free : Nat
  ports : Vector PqmPort 12
deriving DecidableEq, Repr

/-- R108: a port record, with the port's three relays (closed when true). The drain frames remaining are the PQM's
drain count, and the configured values stand in the configuration image. -/
structure PortRecord where
  state : PortState
  takeWaiting : Bool
  shedPending : Bool
  returnState : Option ReturnState
  link : Bool
  relayTransceiver : Bool
  relayFrontEnd : Bool
  relayAccess : Bool
deriving DecidableEq, Repr

/-- R123: an event cell. -/
structure Cell where
  mode : SenseMode
  priority : Nat
  latched : Bool
  seen : Bool
  request : RequestState
  rearm : Nat
deriving DecidableEq, Repr

/-- The LEU's state of one port: three cells, the levels of its two comparators, and its exit count (R132). -/
structure LeuPort where
  link : Cell
  fvd : Cell
  gflt : Cell
  fvdLevel : Bool
  gfltLevel : Bool
  exit : Nat
deriving DecidableEq, Repr

/-- The Line Event Unit (Chapter 8). `leaveDue` is the model's own: a leave notice (R129) is being worked off within
this event; it is false between commands. -/
structure Leu where
  ports : Vector LeuPort 12
  report : Byte
  leaveDue : Bool
deriving DecidableEq, Repr

/-- R134: a queue entry. `made` records the order in which entries were made. -/
structure QueueEntry where
  requester : Nat
  tag : Half
  port : PortNo
  kind : TestKind
  priority : Nat
  holdTime : Nat
  arrival : Half
  origin : Origin
  made : Nat
deriving DecidableEq, Repr

/-- 9.3: the running test. `stage` is where its step stands, `reported` that its CONNECTED report has been offered. -/
structure RunningTest where
  entry : QueueEntry
  phase : Phase
  step : Nat
  values : List StepValue
  take : Take
  conflicts : Nat
  claimWait : Nat
  remainingHold : Nat
  connected : Nat
  start : Half
  stage : StepStage
  reported : Bool
deriving DecidableEq, Repr

/-- R146: a context of the stack, with its claims flag. -/
structure Context where
  test : RunningTest
  claims : Bool
deriving DecidableEq, Repr

/-- The Test Sequencer (Chapter 9). The stack has its top first, the log its oldest entry first. `nextMade` numbers the
queue entries; `selectDue` is the model's own: an event that R138 makes the TSQ select at has come and the selection is
not done yet; it is false between commands. -/
structure Tsq where
  queue : List QueueEntry
  running : Option RunningTest
  stack : List Context
  log : List (Half × ResultRecord)
  nextSeq : Half
  nextMade : Nat
  selectDue : Bool
deriving DecidableEq, Repr

/-- The Measurement Front End (Chapter 10). -/
structure Mfe where
  source : Source
  connected : Option PortNo
  activity : Activity
  mainOffset : Option Int
  checkOffset : Option Int
  lastCalibration : Option Half
  age : Nat
  failures : Nat
  failed : Bool
  charge : ChargeTimer
deriving DecidableEq, Repr

/-- The Power Manager (Chapter 11). `pin` is the MAINS level, `powerEpoch` the F div 64 of the last power epoch start
made, and the outstanding power reference is kept with the class it shares (R174). -/
structure Pmg where
  mains : Mains
  pin : Bool
  samples : List Half
  lastMean : Option Nat
  tier : Fin 5
  restore : Vector Nat 12
  powerRef : Option (Half × PortClass)
  evaluation : Half
  lastEvaluation : Option Nat
  powerEpoch : Nat
deriving DecidableEq, Repr

/-- 12.2: the engine part of the configuration image, clamped. -/
structure EnginePart where
  fitted : Half
  weight : Nat
  reserved : Nat
  fvLimit : Nat
  irThreshold : Nat
  kmcap : Nat
  balanceLimit : Nat
  va : Nat
  vb : Nat
  vc : Nat
  b1 : Nat
  b2 : Nat
  pBase : Nat
  pTest : Nat
  pSrc : Nat
deriving DecidableEq, Repr

/-- 12.2: the sense mode and priority of one condition. -/
structure CellSetting where
  mode : SenseMode
  priority : Nat
deriving DecidableEq, Repr

/-- 12.2: a port part of the configuration image, clamped. -/
structure PortPart where
  cls : PortClass
  weight : Nat
  limit : Nat
  binder : BinderNo
  link : CellSetting
  fvd : CellSetting
  gflt : CellSetting
  pServ : Nat
  pIso : Nat
deriving DecidableEq, Repr

/-- The Configuration and Status Unit (Chapter 12). -/
structure Csu where
  state : EngineState
  address : Nat
  engine : Option EnginePart
  ports : Vector (Option PortPart) 12
deriving DecidableEq, Repr

/-- The whole engine. `delivered` is the last downstream payload handed to a port's transceiver (R59), an output.
`freeDraws` numbers the free values drawn so far (log entry 3). `pending` is the queue of waiting commands. -/
structure State where
  csu : Csu
  pbi : Pbi
  pvu : Pvu
  au : Au
  uls : Uls
  pqm : Pqm
  ptc : Vector PortRecord 12
  leu : Leu
  tsq : Tsq
  mfe : Mfe
  pmg : Pmg
  delivered : Option (PortNo × List Byte)
  freeDraws : Nat
  pending : List Instr
deriving DecidableEq, Repr

/-! ### Values after power-on -/

/-- R18: no error kind has occurred. -/
def ErrorSet.empty : ErrorSet := ⟨false, false, false, false, false, false, false⟩

/-- R21: the PBI after power-on. -/
def Pbi.powerOn : Pbi :=
  { rx := .discarding, ownEnded := false, tx := .idle, queue := [], nextOrder := 0, idle := 0, rxValid := 0,
    rxDiscard := 0, collisions := 0, txDropped := 0, errors := ErrorSet.empty }

/-- R28: a claim-view entry after power-on. -/
def ClaimEntry.powerOn : ClaimEntry :=
  { holder := none, stamp := 0, lastRefresh := 0, silence := 0, own := .none, ownStamp := 0, settle := 0,
    contested := false, refresh := 0, unused := 0, markedWaiting := false, holdOff := none }

/-- R23, R28: the PVU after power-on. -/
def Pvu.powerOn : Pvu :=
  { peers := [], claims := Vector.replicate 9 ClaimEntry.powerOn, accessWanted := false }

/-- R55: the AU after power-on. -/
def Au.powerOn : Au := { inFlight := none, pendingPort := none, pendingShare := none, pendingPower := none }

/-- R77, R94: the ULS after power-on. -/
def Uls.powerOn : Uls :=
  { f := 0, period := 1000, lastMarker := none, miss := 0, timerAdvanced := false, sync := .nosync, shareEpoch := 0,
    current := none, pendingWindow := none, shareRef := none, lastCut := none, ownDemand := 0, admitted := 0,
    coverage := List.replicate 128 0, grantMap := [], granted := 0, division := none, rotation := 0, inFlight := [],
    retransmit := [] }

/-- R107: a port's counters after power-on. -/
def PortCounters.zero : PortCounters := ⟨0, 0, 0, 0, 0, 0, 0⟩

/-- R107: the PQM's state of a port after power-on. -/
def PqmPort.powerOn : PqmPort := { queue := [], next := 0, drainCount := 0, counters := PortCounters.zero }

/-- R107: the PQM after power-on. -/
def Pqm.powerOn : Pqm := { free := 512, ports := Vector.replicate 12 PqmPort.powerOn }

/-- R108: a port record after power-on. -/
def PortRecord.powerOn : PortRecord :=
  { state := .unfitted, takeWaiting := false, shedPending := false, returnState := none, link := false,
    relayTransceiver := false, relayFrontEnd := false, relayAccess := false }

/-- R123: an event cell after power-on. -/
def Cell.powerOn : Cell :=
  { mode := .none, priority := 0, latched := false, seen := false, request := .idle, rearm := 4096 }

/-- R123, R132: the LEU's state of a port after power-on, both comparators false. -/
def LeuPort.powerOn : LeuPort :=
  { link := Cell.powerOn, fvd := Cell.powerOn, gflt := Cell.powerOn, fvdLevel := false, gfltLevel := false, exit := 0 }

/-- R123, R126: the LEU after power-on, every comparator false. -/
def Leu.powerOn : Leu := { ports := Vector.replicate 12 LeuPort.powerOn, report := 0, leaveDue := false }

/-- R134, R153: the TSQ after power-on. -/
def Tsq.powerOn : Tsq :=
  { queue := [], running := none, stack := [], log := [], nextSeq := 0, nextMade := 0, selectDue := false }

/-- R154: the MFE after power-on. -/
def Mfe.powerOn : Mfe :=
  { source := .off, connected := none, activity := .idle, mainOffset := none, checkOffset := none,
    lastCalibration := none, age := 1024, failures := 0, failed := false, charge := .idle }

/-- R177: the PMG after power-on, with MAINS high. -/
def Pmg.powerOn : Pmg :=
  { mains := .present, pin := true, samples := [], lastMean := none, tier := 0, restore := Vector.replicate 12 0,
    powerRef := none, evaluation := 0, lastEvaluation := none, powerEpoch := 0 }

/-- R178: the CSU after power-on with the straps read as 0, which is station address 1. -/
def Csu.powerOn : Csu :=
  { state := .unconfigured, address := 1, engine := none, ports := Vector.replicate 12 none }

/-- The engine right after power-on reset with straps 0, every comparator false and MAINS high (R178; the four input
pins' levels are the model's choice, log entry 6). Its command queue is empty. -/
def State.reset : State :=
  { csu := Csu.powerOn, pbi := Pbi.powerOn, pvu := Pvu.powerOn, au := Au.powerOn, uls := Uls.powerOn,
    pqm := Pqm.powerOn, ptc := Vector.replicate 12 PortRecord.powerOn, leu := Leu.powerOn, tsq := Tsq.powerOn,
    mfe := Mfe.powerOn, pmg := Pmg.powerOn, delivered := none, freeDraws := 0, pending := [] }

/-! ### Why a step can stop -/

/-- Faults. The spec gives the engine no event that stops it, and no meaning raises this one; it stands so that the
type is a closed inductive with a name (safe). -/
inductive Fault
  /-- Raised by no meaning: the engine has no fault that stops it (safe). -/
  | stopped
deriving DecidableEq, Repr

/-- Refusals. -/
inductive Refusal
  /-- Raised by an arm of `exec` whose command has no meaning yet; every command has one (safe). -/
  | notModelled (mnemonic : String)
deriving DecidableEq, Repr

end Sys2Proof.Machine
end

