-- ==== Sys2Proof/Machine/Ops.lean ====
section
/-!
DEFINITION. The named operations over the state: reading and writing one port, queue, line and claim, the configured
values, bytes and 16-bit fields, and the message check.
-/
namespace Sys2Proof.Machine

/-! ### One entry of each table -/

/-- The port record of p (R108). -/
def State.port (s : State) (p : PortNo) : PortRecord := tget s.ptc p

/-- The state with the port record of p replaced. -/
def State.setPort (s : State) (p : PortNo) (r : PortRecord) : State := { s with ptc := tput s.ptc p r }

/-- The PQM's state of port p. -/
def State.pq (s : State) (p : PortNo) : PqmPort := tget s.pqm.ports p

/-- The state with the PQM's state of port p replaced. -/
def State.setPq (s : State) (p : PortNo) (q : PqmPort) : State :=
  { s with pqm := { s.pqm with ports := tput s.pqm.ports p q } }

/-- The LEU's state of port p. -/
def State.line (s : State) (p : PortNo) : LeuPort := tget s.leu.ports p

/-- The state with the LEU's state of port p replaced. -/
def State.setLine (s : State) (p : PortNo) (l : LeuPort) : State :=
  { s with leu := { s.leu with ports := tput s.leu.ports p l } }

/-- The claim-view entry of resource r (R28). -/
def State.claimOf (s : State) (r : ResourceNo) : ClaimEntry := tget s.pvu.claims r

/-- The state with the claim-view entry of r replaced. -/
def State.setClaim (s : State) (r : ResourceNo) (c : ClaimEntry) : State :=
  { s with pvu := { s.pvu with claims := tput s.pvu.claims r c } }

/-- The restore counter of port p (R176). -/
def State.restoreOf (s : State) (p : PortNo) : Nat := tget s.pmg.restore p

/-- The state with the restore counter of p replaced. -/
def State.setRestore (s : State) (p : PortNo) (n : Nat) : State :=
  { s with pmg := { s.pmg with restore := tput s.pmg.restore p n } }

/-- The cell of a condition. -/
def LeuPort.cell (l : LeuPort) : Condition → Cell
  | .link => l.link
  | .fvd => l.fvd
  | .gflt => l.gflt

/-- The line's state with the cell of a condition replaced. -/
def LeuPort.setCell (l : LeuPort) (c : Condition) (x : Cell) : LeuPort :=
  match c with
  | .link => { l with link := x }
  | .fvd => { l with fvd := x }
  | .gflt => { l with gflt := x }

/-- The event cell of port p and condition c (R123). -/
def State.cell (s : State) (p : PortNo) (c : Condition) : Cell := (s.line p).cell c

/-- The state with one event cell replaced. -/
def State.setCell (s : State) (p : PortNo) (c : Condition) (x : Cell) : State :=
  s.setLine p ((s.line p).setCell c x)

/-! ### Configuration and engine state -/

/-- Zeros, in place of an engine part that is not there. Nothing the engine does in RUN reads it, since RUN is entered
only with an engine part (R180). -/
def EnginePart.absent : EnginePart :=
  { fitted := 0, weight := 1, reserved := 0, fvLimit := 0, irThreshold := 0, kmcap := 20, balanceLimit := 0, va := 0,
    vb := 0, vc := 0, b1 := 0, b2 := 0, pBase := 0, pTest := 0, pSrc := 0 }

/-- In place of a port part that is not there. A port without one is UNFITTED (R121). -/
def PortPart.absent : PortPart :=
  { cls := .essential, weight := 1, limit := 64, binder := 0, link := ⟨.none, 0⟩, fvd := ⟨.none, 0⟩,
    gflt := ⟨.none, 0⟩, pServ := 0, pIso := 0 }

/-- The engine part of the configuration image. -/
def State.engine (s : State) : EnginePart := s.csu.engine.getD EnginePart.absent

/-- 12.2: the fitted set of an engine part names port p. -/
def EnginePart.fits (e : EnginePart) (p : PortNo) : Bool := e.fitted.getLsbD p.val

/-- The ports that the configuration names as fitted, ascending. -/
def State.configuredPorts (s : State) : List PortNo := allPorts.filter s.engine.fits

/-- The port part of p. -/
def State.part (s : State) (p : PortNo) : PortPart := (tget s.csu.ports p).getD PortPart.absent

/-- The engine is in RUN. -/
def State.inRun (s : State) : Bool := decide (s.csu.state = .run)

/-- The resource of the binder group configured for port p. -/
def State.binderOf (s : State) (p : PortNo) : ResourceNo := binderResource (s.part p).binder

/-- The capacity C = 128 - R (Introduction). -/
def State.capacity (s : State) : Nat := 128 - s.engine.reserved

/-- The share epoch of a frame, F div 8. -/
def shareEpochOf (f : Half) : Nat := f.toNat / 8

/-- The power epoch of a frame, F div 64. -/
def powerEpochOf (f : Half) : Nat := f.toNat / 64

/-- A fitted port: one whose record is not UNFITTED (R121). -/
def State.fitted (s : State) (p : PortNo) : Bool := decide ((s.port p).state ≠ .unfitted)

/-- IN SERVICE or DRAINING: the transceiver relay is closed (R109). -/
def PortState.serving : PortState → Bool
  | .inService => true
  | .draining _ => true
  | _ => false

/-- DRAINING, for either reason. -/
def PortState.isDraining : PortState → Bool
  | .draining _ => true
  | _ => false

/-! ### Bytes -/

/-- A 16-bit field, high byte first (R185). -/
def halfBytes (h : Half) : List Byte := [h.extractLsb' 8 8, h.extractLsb' 0 8]

/-- A number as one byte. -/
def natByte (n : Nat) : Byte := BitVec.ofNat 8 n

/-- A number as a 16-bit field. -/
def natHalf (n : Nat) : Half := BitVec.ofNat 16 n

/-- A number as a 16-bit field, high byte first. -/
def natHalfBytes (n : Nat) : List Byte := halfBytes (natHalf n)

/-- Byte i of a payload. -/
def byteAt (bs : List Byte) (i : Nat) : Byte := bs.getD i 0

/-- The 16-bit field at byte i of a payload, high byte first (R185). -/
def halfAt (bs : List Byte) (i : Nat) : Half := byteAt bs i ++ byteAt bs (i + 1)

/-! ### The message check -/

/-- One bit of the check register's division by x^16 + x^12 + x^5 + 1 (R3, R185). -/
def crcBit (r : Half) : Half := if r.msb then (r <<< 1) ^^^ 0x1021#16 else r <<< 1

/-- One byte into the check register, most significant bit first (R185). -/
def crcByte (r : Half) (b : Byte) : Half :=
  crcBit (crcBit (crcBit (crcBit (crcBit (crcBit (crcBit (crcBit (r ^^^ (b ++ 0#8)))))))))

/-- R3: the message check over bytes in the order they are sent, from all ones, without final inversion. -/
def messageCheck (bs : List Byte) : Half := bs.foldl crcByte 0xFFFF#16

end Sys2Proof.Machine
end

