-- ==== Sys2Proof/Machine/Alloc.lean ====
section
/-!
DEFINITION. The Allocation Unit (Chapter 3): the weighted max-min division (R44 to R48), and the requests it holds
(R52 to R54).
-/
namespace Sys2Proof.Machine

/-! ### The division -/

/-- R43: a weight outside 1 to 15 is taken as the nearer bound. -/
def Requester.w (r : Requester) : Nat := clampNat 1 15 r.weight

/-- R45: the sum of the weights of the unsettled set. -/
def weightSum (u : List Requester) : Nat := (u.map Requester.w).sum

/-- R45: the fair share of a member of the unsettled set. -/
def fairShare (cr w : Nat) (r : Requester) : Nat := cr * r.w / w

/-- R46: the satisfied set of a round. -/
def satisfied (u : List Requester) (cr : Nat) : List Requester :=
  u.filter fun r => decide (r.demand ≤ fairShare cr (weightSum u) r)

/-- R46: the members that stay unsettled after a round. -/
def unsatisfied (u : List Requester) (cr : Nat) : List Requester :=
  u.filter fun r => decide (¬ r.demand ≤ fairShare cr (weightSum u) r)

/-- The sum of the demands of a list of requesters. -/
def demandSum (u : List Requester) : Nat := (u.map Requester.demand).sum

/-- R45, R46: where the rounds end: the unsettled set of the final allotment (empty where every requester has been
satisfied) and the remaining capacity. Each round removes a member or ends the computation (R50), so as many rounds as
there are requesters are enough. -/
def finalRound : Nat → List Requester → Nat → List Requester × Nat
  | 0, u, cr => (u, cr)
  | n + 1, u, cr =>
    if (satisfied u cr).isEmpty then (u, cr)
    else finalRound n (unsatisfied u cr) (cr - demandSum (satisfied u cr))

/-- R44: the requesters that enter the first round. -/
def AuRequest.unsettled (q : AuRequest) : List Requester := q.requesters.filter fun r => decide (r.demand ≠ 0)

/-- R45, R46: the final unsettled set and remaining capacity of a request. -/
def AuRequest.final (q : AuRequest) : List Requester × Nat := finalRound q.unsettled.length q.unsettled q.capacity

/-- R47: the leftover, the remaining capacity less the fair shares of the final allotment. -/
def AuRequest.leftover (q : AuRequest) : Nat :=
  let (u, cr) := q.final
  cr - (u.map (fairShare cr (weightSum u))).sum

/-- R48: the members of the final allotment that receive a leftover unit, by a walk of the order list. -/
def AuRequest.leftoverTo (q : AuRequest) : List Nat :=
  (q.order.filter fun i => q.final.1.any fun r => decide (r.id = i)).take q.leftover

/-- R44 to R48: the allocation of one requester. A member of the final allotment receives its fair share and perhaps
one leftover unit; every other requester has received its demand (0 for a demand of 0). -/
def AuRequest.allocationOf (q : AuRequest) (r : Requester) : Nat :=
  let (u, cr) := q.final
  if u.any fun x => decide (x.id = r.id) then
    fairShare cr (weightSum u) r + (if q.leftoverTo.contains r.id then 1 else 0)
  else r.demand

/-- R51: the completion: one allocation for each requester, in the order of the request. -/
def AuRequest.allocations (q : AuRequest) : List (Nat × Nat) := q.requesters.map fun r => (r.id, q.allocationOf r)

/-- The allocation of the requester of this identity, 0 where the request has none. -/
def AuRequest.allocationTo (q : AuRequest) (i : Nat) : Nat :=
  match q.allocations.find? fun a => a.1 = i with
  | some a => a.2
  | none => 0

/-! ### Requests -/

/-- The state with the AU replaced. -/
def State.setAu (s : State) (a : Au) : State := { s with au := a }

/-- R52: a request becomes or replaces the pending request of its kind. -/
def Au.pend (a : Au) (q : AuRequest) : Au :=
  match q.kind with
  | .portDivision => { a with pendingPort := some q }
  | .stationShare => { a with pendingShare := some q }
  | .powerShare => { a with pendingPower := some q }

/-- R52: a request arrives: it starts at once when the AU is idle with nothing pending, and waits otherwise. -/
def Au.request (a : Au) (q : AuRequest) : Au :=
  if a.inFlight = none ∧ a.pendingPort = none ∧ a.pendingShare = none ∧ a.pendingPower = none then
    { a with inFlight := some q }
  else a.pend q

/-- R53: at a completion the AU starts a pending port division, else a pending station share, else a pending power
share, and else becomes idle. -/
def Au.next (a : Au) : Au :=
  match a.pendingPort, a.pendingShare, a.pendingPower with
  | some q, _, _ => { a with inFlight := some q, pendingPort := none }
  | none, some q, _ => { a with inFlight := some q, pendingShare := none }
  | none, none, some q => { a with inFlight := some q, pendingPower := none }
  | none, none, none => { a with inFlight := none }

/-- A block makes a request of the AU (R52). -/
def State.requestAu (s : State) (q : AuRequest) : State := s.setAu (s.au.request q)

/-- The computation in flight, when it is of this kind. -/
def State.inFlightOf (s : State) (k : AuKind) : Option AuRequest := s.au.inFlight.filter fun q => decide (q.kind = k)

/-- The AU has delivered its completion and starts a pending request (R53). -/
def State.nextAu (s : State) : State := s.setAu s.au.next

/-! ### Times -/

/-- R50: the microseconds of the rounds of a computation and of its leftover walk. -/
def roundMicros : Nat → List Requester → Nat → Nat
  | 0, _, _ => 0
  | n + 1, u, cr =>
    if u.isEmpty then 0
    else if (satisfied u cr).isEmpty then 4 + 2 * u.length + 2 * u.length
    else 4 + 2 * u.length + roundMicros n (unsatisfied u cr) (cr - demandSum (satisfied u cr))

/-- R50: the microseconds a computation takes. The model's steps do not depend on it (log entry 9). -/
def AuRequest.micros (q : AuRequest) : Nat := 4 + roundMicros q.unsettled.length q.unsettled q.capacity

end Sys2Proof.Machine
end

