-- ==== Sys2Proof/Machine/Cells.lean ====
section
/-!
DEFINITION. The Line Event Unit's cells (Chapter 8) and the test queue they ask (R134, R137): pending cells, edges,
automatic requests, and the notices of R129.
-/
namespace Sys2Proof.Machine

/-! ### The test queue -/

/-- The state with the TSQ replaced. -/
def State.setTsq (s : State) (t : Tsq) : State := { s with tsq := t }

/-- R134: entry a comes before entry b in queue order. Of arrivals exactly 32768 frames apart neither is earlier, and
neither entry comes before the other (log entry 37). -/
def QueueEntry.before (a b : QueueEntry) : Bool :=
  decide (b.priority < a.priority) ||
    (decide (a.priority = b.priority) &&
      (stampEarlier a.arrival b.arrival || (decide (a.arrival = b.arrival) && decide (a.made < b.made))))

/-- R134: an entry put in its place in queue order, before the first entry that it comes before and behind all others. With
an arrival exactly 32768 frames from its own, which it does not come before, it stands behind (DESIGN CHOICE, log entry
37, unsafe). Where three or more entries of one priority have arrival frames that run around in a cycle, such as 0, 30000
and 60000, no order fits every pair, and the entry may stand ahead of one that comes before it (DESIGN CHOICE, log entry
51, unsafe). -/
def insertEntry (e : QueueEntry) : List QueueEntry → List QueueEntry
  | [] => [e]
  | x :: xs => if e.before x then e :: x :: xs else x :: insertEntry e xs

/-- R134: the length the queue is limited to. -/
def queueCapacity : Nat := 16

/-- The queue entry of this port and kind. -/
def State.queued? (s : State) (p : PortNo) (k : TestKind) : Option QueueEntry :=
  s.tsq.queue.find? fun e => decide (e.port = p) && decide (e.kind = k)

/-- The running test or a test of the context stack is of this port and kind. -/
def State.active (s : State) (p : PortNo) (k : TestKind) : Bool :=
  (s.tsq.running.any fun t => decide (t.entry.port = p) && decide (t.entry.kind = k)) ||
    s.tsq.stack.any fun c => decide (c.test.entry.port = p) && decide (c.test.entry.kind = k)

/-- The queue without the entry numbered n. -/
def dropMade (q : List QueueEntry) (n : Nat) : List QueueEntry := q.filter fun e => decide (e.made ≠ n)

/-- The state with a new entry in the queue; the TSQ selects at this event (R138). -/
def State.addEntry (s : State) (e : QueueEntry) : State :=
  s.setTsq { s.tsq with queue := insertEntry { e with made := s.tsq.nextMade } s.tsq.queue
                        nextMade := s.tsq.nextMade + 1, selectDue := true }

/-! ### Conditions and cells -/

/-- R128: the kind of test a condition calls for. -/
def Condition.kind : Condition → TestKind
  | .link => .full
  | .fvd => .fv
  | .gflt => .ir

/-- 8.4: the condition whose cell is the cell for a kind. -/
def TestKind.condition? : TestKind → Option Condition
  | .full => some .link
  | .fv => some .fvd
  | .ir => some .gflt
  | .cap => none
  | .access => none

/-- R123: an edge mode. -/
def SenseMode.isEdge : SenseMode → Bool
  | .rising => true
  | .falling => true
  | .both => true
  | _ => false

/-- R123: a level mode. -/
def SenseMode.isLevel : SenseMode → Bool
  | .levelHigh => true
  | .levelLow => true
  | _ => false

/-- R124: the mode chooses an edge to `level`. -/
def SenseMode.chooses (m : SenseMode) (level : Bool) : Bool :=
  match m with
  | .rising => level
  | .falling => !level
  | .both => true
  | _ => false

/-- R122: the level of a condition. -/
def State.level (s : State) (p : PortNo) : Condition → Bool
  | .link => (s.port p).link
  | .fvd => (s.line p).fvdLevel
  | .gflt => (s.line p).gfltLevel

/-- R156: the output of a foreign-voltage comparator after a window of these peaks, in hundredths of a volt: true above
65.00 V, false when all three have stayed below 60.00 V, and otherwise as it was. -/
def fvdOutput (before : Bool) (v : LinePeaks) : Bool :=
  let peak := max v.tipGround (max v.ringGround v.tipRing)
  if 6500 < peak then true else if peak < 6000 then false else before

/-- R156: the output of a ground-fault comparator at these resistances, in ohms: true when either wire is below 20 kΩ,
false when both are above 25 kΩ, and otherwise as it was. -/
def gfltOutput (before : Bool) (r : WireResistances) : Bool :=
  if min r.tip r.ring < 20000 then true else if 25000 < min r.tip r.ring then false else before

/-- R122, R125: the condition is not masked. LINK is masked while the port is neither IN SERVICE nor DRAINING. -/
def State.unmasked (s : State) (p : PortNo) : Condition → Bool
  | .link => (s.port p).state.serving
  | _ => true

/-- R123, R125: the cell is pending. -/
def State.cellPending (s : State) (p : PortNo) (c : Condition) : Bool :=
  let x := s.cell p c
  match x.mode with
  | .none => false
  | .levelHigh => s.unmasked p c && s.level p c
  | .levelLow => s.unmasked p c && !s.level p c
  | _ => x.latched

/-- The three conditions in the order LINK, FVD, GFLT. -/
def allConditions : List Condition := [.link, .fvd, .gflt]

/-- All 36 cells, by port number and then LINK, FVD, GFLT. -/
def allCells : List (PortNo × Condition) := allPorts.flatMap fun p => allConditions.map fun c => (p, c)

/-- R129: the priorities, highest first. -/
def priorities : List Nat := [15, 14, 13, 12, 11, 10, 9, 8, 7, 6, 5, 4, 3, 2, 1]

/-- R129: the cells of priority 1 or more that satisfy a test, by priority, highest first, then ascending port number,
then LINK, FVD, GFLT. -/
def State.cellsWhere (s : State) (f : PortNo → Condition → Cell → Bool) : List (PortNo × Condition) :=
  priorities.flatMap fun n => allCells.filter fun (p, c) => decide ((s.cell p c).priority = n) && f p c (s.cell p c)

/-! ### Automatic requests -/

/-- R137, order 5: of the automatic entries whose priority is lower than the request's, the one of lowest priority and,
among those, the latest arrival. Where two of them also share their arrival frame, the one made last leaves, which is the
last in queue order (DESIGN CHOICE, log entry 47, unsafe). -/
def State.displaceable (s : State) (prio : Nat) : Option QueueEntry :=
  s.tsq.queue.reverse.find? fun e => decide (e.requester = 0) && decide (e.priority < prio)

/-- R129: the displaced notice: the cell for the entry, if QUEUED, becomes WAIT ROOM. -/
def State.noticeDisplaced (s : State) (p : PortNo) (k : TestKind) : State :=
  match k.condition? with
  | none => s
  | some c =>
    let x := s.cell p c
    if x.request = .queued then s.setCell p c { x with request := .waitRoom } else s

/-- R129: the leave notice: every cell that is WAIT ROOM asks again (`settleLeaves`). -/
def State.noticeLeave (s : State) : State := { s with leu := { s.leu with leaveDue := true } }

/-- The entry an automatic request makes (R137). -/
def autoEntry (s : State) (p : PortNo) (c : Condition) (prio : Nat) : QueueEntry :=
  { requester := 0, tag := 0, port := p, kind := c.kind, priority := prio, holdTime := 0, arrival := s.uls.f,
    origin := .cell p c, made := 0 }

/-- R137: an automatic request of the cell of p and c, and the TSQ's answer. -/
def State.autoRequest (s : State) (p : PortNo) (c : Condition) (prio : Nat) : State × AutoAnswer :=
  if s.mfe.failed then (s, .refused)
  else if s.active p c.kind then (s, .active)
  else if (s.queued? p c.kind).isSome then (s, .present)
  else if s.tsq.queue.length < queueCapacity then (s.addEntry (autoEntry s p c prio), .queued)
  else
    match s.displaceable prio with
    | some e =>
      let s := s.setTsq { s.tsq with queue := dropMade s.tsq.queue e.made }
      (((s.noticeDisplaced e.port e.kind).addEntry (autoEntry s p c prio)).noticeLeave, .queued)
    | none => (s, .full)

/-- R128: the request state an answer leads to. -/
def AutoAnswer.requestState : AutoAnswer → RequestState
  | .queued => .queued
  | .present => .queued
  | .active => .waitEnd
  | .full => .waitRoom
  | .refused => .idle

/-- R128: an edge cell makes its automatic request, and its request state follows the answer. -/
def State.askCell (s : State) (p : PortNo) (c : Condition) : State :=
  let (s, ans) := s.autoRequest p c (s.cell p c).priority
  s.setCell p c { s.cell p c with request := ans.requestState }

/-- R129: a waiting cell asks again, if it is still in that request state. -/
def State.askIf (s : State) (r : RequestState) (p : PortNo) (c : Condition) : State :=
  if (s.cell p c).request = r ∧ s.inRun = true then s.askCell p c else s

/-- R129: leave notices are worked off: every WAIT ROOM cell asks again, in order, as long as an asking displaces a
further entry. A displacement puts an entry of higher priority in the place of a lower one, so the priorities of the
16 entries, 15 at most, bound the rounds; `n` is above that bound (log entry 10). -/
def settleLeaves : Nat → State → State
  | 0, s => { s with leu := { s.leu with leaveDue := false } }
  | n + 1, s =>
    if s.leu.leaveDue then
      let s : State := { s with leu := { s.leu with leaveDue := false } }
      settleLeaves n
        ((s.cellsWhere fun _ _ x => decide (x.request = .waitRoom)).foldl (fun s pc => s.askIf .waitRoom pc.1 pc.2) s)
    else s

/-- R129: every leave notice of this event is worked off. -/
def State.settleNotices (s : State) : State := settleLeaves 256 s

/-- R130: a level cell may ask: it is pending, its priority is at least 1, the engine is in RUN, no test of its port
and kind is queued, running or suspended, and its re-arm count is 4096. -/
def State.levelMayAsk (s : State) (p : PortNo) (c : Condition) : Bool :=
  let x := s.cell p c
  x.mode.isLevel && s.cellPending p c && decide (1 ≤ x.priority) && s.inRun && !s.active p c.kind &&
    (s.queued? p c.kind).isNone && decide (x.rearm = 4096)

/-- R130: a level cell asks when it may; the answer does not change it. -/
def State.levelAsk (s : State) (p : PortNo) (c : Condition) : State :=
  if s.levelMayAsk p c then (s.autoRequest p c (s.cell p c).priority).1 else s

/-- R130: every level cell that may ask does, by priority, port number and condition (log entries 36 and 44). -/
def State.levelAskAll (s : State) : State :=
  (s.cellsWhere fun _ _ x => x.mode.isLevel).foldl (fun s pc => s.levelAsk pc.1 pc.2) s

/-! ### Edges and notices -/

/-- R124: a chosen edge on an edge cell. -/
def State.latchEdge (s : State) (p : PortNo) (c : Condition) : State :=
  let x := s.cell p c
  let ask := decide (1 ≤ x.priority) && s.inRun
  if x.latched then
    let s' := s.setCell p c { x with seen := false }
    if x.request = .idle ∧ ask = true then s'.askCell p c else s'
  else
    let s' := s.setCell p c { x with latched := true, seen := false }
    if ask then s'.askCell p c else s'

/-- R124, R125, R130: the cell of p and c takes an edge of its condition to `level`. -/
def State.cellEdge (s : State) (p : PortNo) (c : Condition) (level : Bool) : State :=
  let x := s.cell p c
  if x.mode.chooses level then s.latchEdge p c
  else if x.mode.isLevel then s.levelAsk p c
  else s

/-- R129: the start notice clears the cell for p and k. -/
def State.noticeStart (s : State) (p : PortNo) (k : TestKind) : State :=
  match k.condition? with
  | none => s
  | some c =>
    let x := s.cell p c
    if x.mode.isEdge then s.setCell p c { x with latched := false, seen := false, request := .idle } else s

/-- R129, R130: the end notice: the cell for p and k asks again if it is WAIT END, and the level cell that made the
test's queue entry starts its re-arm count afresh. -/
def State.noticeEnd (s : State) (p : PortNo) (k : TestKind) (origin : Origin) : State :=
  match k.condition? with
  | none => s
  | some c =>
    let x := s.cell p c
    let s := if x.mode.isLevel ∧ origin = .cell p c then s.setCell p c { x with rearm := 0 } else s
    s.askIf .waitEnd p c

/-- R129: the removed notice: the cell for p and k, if QUEUED, becomes IDLE. -/
def State.noticeRemoved (s : State) (p : PortNo) (k : TestKind) : State :=
  match k.condition? with
  | none => s
  | some c =>
    let x := s.cell p c
    if x.request = .queued then s.setCell p c { x with request := .idle } else s

/-- R130: the re-arm counts of the level cells advance at a frame advance. -/
def Cell.rearmed (x : Cell) : Cell := if x.mode.isLevel then { x with rearm := min 4096 (x.rearm + 1) } else x

/-- R130, R132: the LEU's counts of one port at a frame advance. -/
def State.countLine (s : State) (p : PortNo) : State :=
  let l := s.line p
  s.setLine p
    { l with
      link := l.link.rearmed
      fvd := l.fvd.rearmed
      gflt := l.gflt.rearmed
      exit := if (s.port p).state = .isolated ∧ l.fvdLevel = false then min 64 (l.exit + 1) else l.exit }

end Sys2Proof.Machine
end

