-- ==== Sys2Proof/Machine/Flags.lean ====
section
/-!
DEFINITION. Codes and flag bytes of the messages (R185): the code of every name that a message carries, the error set,
the fail set, the flags of a value, and the flags bytes of the status replies.
-/
namespace Sys2Proof.Machine

/-- A flag at bit b of a byte. -/
def flagBit (b : Nat) (x : Bool) : Byte := if x then 1#8 <<< b else 0#8

/-- R19: an error kind joins the set. -/
def ErrorSet.add (e : ErrorSet) : ErrorKind → ErrorSet
  | .byte => { e with byte := true }
  | .short => { e with short := true }
  | .check => { e with check := true }
  | .length => { e with length := true }
  | .kind => { e with kind := true }
  | .unexpected => { e with unexpected := true }
  | .self => { e with self := true }

/-- R19: membership in the error set. -/
def ErrorSet.has (e : ErrorSet) : ErrorKind → Bool
  | .byte => e.byte
  | .short => e.short
  | .check => e.check
  | .length => e.length
  | .kind => e.kind
  | .unexpected => e.unexpected
  | .self => e.self

/-- R185: the error set as one byte, a bit per kind from BYTE to SELF. The order of the kinds is R19's, BYTE at bit 0:
DESIGN CHOICE, log entry 7 (unsafe). Bit 7, which R185 assigns to nothing, is 0: DESIGN CHOICE, log entry 49 (unsafe). -/
def ErrorSet.toByte (e : ErrorSet) : Byte :=
  flagBit 0 e.byte ||| flagBit 1 e.short ||| flagBit 2 e.check ||| flagBit 3 e.length ||| flagBit 4 e.kind |||
    flagBit 5 e.unexpected ||| flagBit 6 e.self

/-- R165: no failure. -/
def FailSet.empty : FailSet := ⟨false, false, false, false⟩

/-- R185: fail set bits 0 to 3 for FOREIGN to UNBALANCED; bits 7 to 4, which R185 assigns to nothing where the set has a
byte of its own, are 0: DESIGN CHOICE, log entry 49 (unsafe). -/
def FailSet.toByte (f : FailSet) : Byte :=
  flagBit 0 f.foreign ||| flagBit 1 f.lowIr ||| flagBit 2 f.open' ||| flagBit 3 f.unbalanced

/-- R185: engine state codes, the position in the table of 12.1. -/
def EngineState.code : EngineState → Byte
  | .unconfigured => 0
  | .run => 1
  | .conflict => 2

/-- R185: sync state codes, the position in the table of 4.3. -/
def SyncState.code : SyncState → Byte
  | .nosync => 0
  | .resync => 1
  | .sync => 2
  | .lost => 3

/-- R185: port state codes, the position in the table of 7.2. -/
def PortState.code : PortState → Byte
  | .unfitted => 0
  | .inService => 1
  | .draining _ => 2
  | .inTest => 3
  | .isolated => 4
  | .off => 5

/-- R185: phase codes, the position in the phase table of 9.3; RETURN and DONE share its last row. -/
def Phase.code : Phase → Byte
  | .waitPort => 0
  | .claim => 1
  | .drain => 2
  | .calibrate => 3
  | .step => 4
  | .evaluate => 5
  | .connected => 6
  | .done => 7

/-- R185: own states of a claim. -/
def OwnState.code : OwnState → Nat
  | .none => 0
  | .waiting => 1
  | .settling => 2
  | .held => 3

/-- R185: mains states. -/
def Mains.code : Mains → Byte
  | .present => 0
  | .absent => 1
  | .returned => 2

/-- R185: classes. -/
def PortClass.code : PortClass → Nat
  | .essential => 0
  | .standard => 1
  | .deferrable => 2

/-- R185: test kinds. -/
def TestKind.code : TestKind → Nat
  | .fv => 1
  | .ir => 2
  | .cap => 3
  | .full => 4
  | .access => 5

/-- R185: verdicts. -/
def Verdict.code : Verdict → Nat
  | .pass => 0
  | .foreign => 1
  | .lowIr => 2
  | .open => 3
  | .unbalanced => 4

/-- R185: abort causes; 0, which names no cause, where there is none (DESIGN CHOICE, log entry 7, unsafe). -/
def causeCode : Option AbortCause → Nat
  | none => 0
  | some .order => 1
  | some .power => 2
  | some .isolated => 3
  | some .claimLost => 4
  | some .busy => 5
  | some .frontEnd => 6
  | some .port => 7

/-- R185: report types. -/
def ReportType.code : ReportType → Byte
  | .result => 0
  | .connected => 1

/-- R184: outcome codes. -/
def AnswerCode.code : AnswerCode → Byte
  | .accepted => 0
  | .unconfigured => 1
  | .conflict => 2
  | .badKind => 3
  | .noPort => 4
  | .frontEnd => 5
  | .power => 6
  | .isolated => 7
  | .duplicate => 8
  | .queueFull => 9
  | .notFound => 10
  | .stale => 11
  | .already => 12
  | .badValue => 13

/-- R185: condition codes. -/
def Condition.code : Condition → Nat
  | .link => 0
  | .fvd => 1
  | .gflt => 2

/-- R185: a value of 3 bytes, flags OVER RANGE, AC and LIMIT in bits 23 to 21 and the signed value in bits 20 to 0. -/
def StepValue.bytes (v : StepValue) : List Byte :=
  let flags : BitVec 3 :=
    (if v.overRange then 4#3 else 0#3) ||| (if v.ac then 2#3 else 0#3) ||| (if v.limit then 1#3 else 0#3)
  let w : BitVec 24 := flags ++ BitVec.ofInt 21 v.value
  [w.extractLsb' 16 8, w.extractLsb' 8 8, w.extractLsb' 0 8]

/-- R185: the ENGINE flags byte (window empty, calibration never, mean absent, FAILED). Their bits are not stated; they
are packed from bit 7 down in the order listed, as the PORT and PEER flags are: DESIGN CHOICE, log entry 7 (unsafe). Bits
3 to 0, which R185 assigns to nothing, are 0: DESIGN CHOICE, log entry 49 (unsafe). -/
def engineFlags (windowEmpty never meanAbsent failed : Bool) : Byte :=
  flagBit 7 windowEmpty ||| flagBit 6 never ||| flagBit 5 meanAbsent ||| flagBit 4 failed

/-- R185: the PORT flags byte; `cls` is the class in its two low bits. -/
def portFlags (r : PortRecord) (cls : Byte) : Byte :=
  flagBit 7 (decide (r.state = .draining .shed)) ||| flagBit 6 r.shedPending ||| flagBit 5 r.returnState.isSome |||
    flagBit 4 (decide (r.returnState = some .off)) ||| flagBit 3 r.link ||| flagBit 2 r.takeWaiting ||| (cls &&& 3#8)

/-- R185: the PEER flags byte. Bits 3 and 2, which R185 assigns to nothing, are 0: DESIGN CHOICE, log entry 49
(unsafe). -/
def peerFlags (demand demandValid load loadValid : Bool) (spans : Nat) : Byte :=
  flagBit 7 demand ||| flagBit 6 demandValid ||| flagBit 5 load ||| flagBit 4 loadValid ||| (natByte spans &&& 3#8)

/-- R185: the first byte of a CLAIMS entry, the holder's address in bits 6 to 2 and the own state in bits 1 and 0. Bit
7, which R185 assigns to nothing, is 0: DESIGN CHOICE, log entry 49 (unsafe). -/
def claimByte (c : ClaimEntry) : Byte := natByte (c.holder.getD 0 * 4 + c.own.code)

end Sys2Proof.Machine
end

