-- ==== Sys2Proof/Machine/Operands.lean ====
section
/-!
DEFINITION. Reading the fields of received messages: the codes of names (R185), the length and kind rules of R4 and
R14, and the clamping of configured and ordered values (R135, R179).
-/
namespace Sys2Proof.Machine

/-- The port of a port byte, when it is 0 to 11. -/
def portOf (b : Byte) : Option PortNo := if h : b.toNat < 12 then some ⟨b.toNat, h⟩ else none

/-- The resource of a resource byte, when it is 0 to 8. -/
def resourceOf (b : Byte) : Option ResourceNo := if h : b.toNat < 9 then some ⟨b.toNat, h⟩ else none

/-- The binder group of a binder byte, when it is 0 to 7. -/
def binderNoOf (b : Byte) : Option BinderNo := if h : b.toNat < 8 then some ⟨b.toNat, h⟩ else none

/-- R185: test kind codes. -/
def testKindOf (b : Byte) : Option TestKind :=
  match b.toNat with
  | 1 => some .fv
  | 2 => some .ir
  | 3 => some .cap
  | 4 => some .full
  | 5 => some .access
  | _ => none

/-- R185: condition codes. -/
def conditionOf (b : Byte) : Option Condition :=
  match b.toNat with
  | 0 => some .link
  | 1 => some .fvd
  | 2 => some .gflt
  | _ => none

/-- R185: sense-mode codes. -/
def senseModeOf (b : Byte) : Option SenseMode :=
  match b.toNat with
  | 0 => some .none
  | 1 => some .levelHigh
  | 2 => some .levelLow
  | 3 => some .rising
  | 4 => some .falling
  | 5 => some .both
  | _ => none

/-- R185: class codes. -/
def classOf (b : Byte) : Option PortClass :=
  match b.toNat with
  | 0 => some .essential
  | 1 => some .standard
  | 2 => some .deferrable
  | _ => none

end Sys2Proof.Machine

namespace Sys2Proof

open Machine

/-! ### Configuration parts -/

/-- R179, order 2: an engine part whose thresholds are not strictly descending, whose B2 is above B1, or whose fitted
set has any of bits 12 to 15 set. -/
def EngineFields.bad (e : EngineFields) : Bool :=
  !(decide (e.vb.toNat < e.va.toNat) && decide (e.vc.toNat < e.vb.toNat)) || decide (e.b1.toNat < e.b2.toNat) ||
    decide (e.fitted.toNat ≥ 4096)

/-- R179: the engine part stored, clamped. -/
def EngineFields.clamped (e : EngineFields) : EnginePart :=
  { fitted := e.fitted, weight := clampNat 1 15 e.weight.toNat, reserved := min 16 e.reserved.toNat,
    fvLimit := e.fvLimit.toNat, irThreshold := e.irThreshold.toNat, kmcap := clampNat 20 100 e.kmcap.toNat,
    balanceLimit := e.balanceLimit.toNat, va := e.va.toNat, vb := e.vb.toNat, vc := e.vc.toNat, b1 := e.b1.toNat,
    b2 := e.b2.toNat, pBase := e.pBase.toNat, pTest := e.pTest.toNat, pSrc := e.pSrc.toNat }

/-- R179: a queue limit of 0 means the default of 64; any other takes the nearer bound of 8 to 256. -/
def limitOf (n : Nat) : Nat := if n = 0 then 64 else clampNat 8 256 n

/-- R179, order 3: the port and the part a CONFIGURE PORT stores, clamped, or none where the port is above 11, the
binder above 7, or a class or sense-mode code outside its list. -/
def PortFields.clamped (f : PortFields) : Option (PortNo × PortPart) :=
  match portOf f.port, binderNoOf f.binder, classOf f.cls, senseModeOf f.linkMode, senseModeOf f.fvdMode,
    senseModeOf f.gfltMode with
  | some p, some b, some c, some ml, some mf, some mg =>
    some (p, { cls := c, weight := clampNat 1 8 f.weight.toNat, limit := limitOf f.limit.toNat, binder := b,
               link := ⟨ml, min 15 f.linkPriority.toNat⟩, fvd := ⟨mf, min 15 f.fvdPriority.toNat⟩,
               gflt := ⟨mg, min 15 f.gfltPriority.toNat⟩, pServ := f.pServ.toNat, pIso := f.pIso.toNat })
  | _, _, _, _, _, _ => none

/-- R185: the fields of a CONFIGURE ENGINE payload. -/
def engineFieldsOf (bs : List Byte) : EngineFields :=
  { fitted := halfAt bs 3, weight := byteAt bs 5, reserved := byteAt bs 6, fvLimit := halfAt bs 7,
    irThreshold := halfAt bs 9, kmcap := byteAt bs 11, balanceLimit := byteAt bs 12, va := halfAt bs 13,
    vb := halfAt bs 15, vc := halfAt bs 17, b1 := halfAt bs 19, b2 := halfAt bs 21, pBase := halfAt bs 23,
    pTest := halfAt bs 25, pSrc := halfAt bs 27 }

/-- R185: the fields of a CONFIGURE PORT payload. -/
def portFieldsOf (bs : List Byte) : PortFields :=
  { port := byteAt bs 3, cls := byteAt bs 4, weight := byteAt bs 5, limit := halfAt bs 6, binder := byteAt bs 8,
    linkMode := byteAt bs 9, linkPriority := byteAt bs 10, fvdMode := byteAt bs 11, fvdPriority := byteAt bs 12,
    gfltMode := byteAt bs 13, gfltPriority := byteAt bs 14, pServ := halfAt bs 15, pIso := halfAt bs 17 }

/-- R185: the k pairs of port and condition of a CLEAR EVENTS payload. -/
def pairsOf (bs : List Byte) : List (Byte × Byte) :=
  (List.range (byteAt bs 3).toNat).map fun i => (byteAt bs (4 + 2 * i), byteAt bs (5 + 2 * i))

/-! ### The checks of R14 -/

/-- The length byte of a complete message. -/
def RxMessage.len (m : RxMessage) : Byte := natByte m.payload.length

/-- R3: the check computed over the received bytes agrees with the received check. -/
def RxMessage.checkOk (m : RxMessage) : Bool :=
  decide (messageCheck (m.kind :: m.dest :: m.source :: m.len :: m.payload) = m.check)

/-- R14, order 2: a known kind code, and for CONFIGURE a known form. A CONFIGURE too short to hold a form names
neither (DESIGN CHOICE, log entry 8). -/
def RxMessage.kindOk (m : RxMessage) : Bool :=
  decide (1 ≤ m.kind.toNat ∧ m.kind.toNat ≤ 15) &&
    (decide (m.kind.toNat ≠ 13) || decide (m.payload[2]? = some 1#8 ∨ m.payload[2]? = some 2#8))

/-- R4: the payload length matches the kind. Counts are read from the payload. -/
def RxMessage.lengthOk (m : RxMessage) : Bool :=
  let n := m.payload.length
  match m.kind.toNat with
  | 1 => decide (n = 4)
  | 2 => decide (n = 4)
  | 3 => decide (n = 11)
  | 4 => decide (n = 3)
  | 5 => decide (n = 3)
  | 6 => decide (n = 1)
  | 7 => decide (n = 7)
  | 8 => decide (n = 2)
  | 9 =>
    let k := (byteAt m.payload 7).toNat
    decide (8 ≤ n) && decide (k ≤ 11) && (decide (n = 12 + 3 * k) || decide (n = 13 + 3 * k))
  | 10 => decide (n = 5)
  | 11 => decide (3 ≤ n ∧ n ≤ 48)
  | 12 =>
    let k := (byteAt m.payload 3).toNat
    decide (4 ≤ n) && decide (k ≤ 22) && decide (n = 4 + 2 * k)
  | 13 => decide (n = if byteAt m.payload 2 = 1#8 then 29 else 19)
  | 14 => decide (n = 2)
  | 15 => decide (n = 5)
  | _ => false

/-- The request kinds of R15: TEST ORDER, TEST CANCEL, STATUS QUERY, CLEAR EVENTS, CONFIGURE and RESTART. -/
def isRequestKind (k : Nat) : Bool := decide (k = 7 ∨ k = 8 ∨ k = 10 ∨ k = 12 ∨ k = 13 ∨ k = 14)

/-- The report and claim kinds of R15: DEMAND, SPAN CLAIM, LOAD, CLAIM, HOLD and RELEASE. -/
def isPeerKind (k : Nat) : Bool := decide (1 ≤ k ∧ k ≤ 6)

/-- The reply kinds of R15: TEST REPORT, STATUS REPLY and ANSWER. -/
def isReplyKind (k : Nat) : Bool := decide (k = 9 ∨ k = 11 ∨ k = 15)

/-- R15: the message is UNEXPECTED at the engine of this address. -/
def RxMessage.unexpected (m : RxMessage) (address : Nat) : Bool :=
  let k := m.kind.toNat
  decide (m.source.toNat = 0 ∨ 31 < m.source.toNat ∨ 31 < m.dest.toNat) ||
    (isRequestKind k && decide (m.dest.toNat = 0)) ||
    (isPeerKind k && decide (17 ≤ m.source.toNat ∨ m.dest.toNat ≠ 0)) ||
    (isReplyKind k && decide (m.dest.toNat = 0 ∨ m.dest.toNat = address))

/-- R14: the first condition that holds, in the order CHECK, KIND, LENGTH, SELF, UNEXPECTED; none where the message is
valid. -/
def RxMessage.error (m : RxMessage) (address : Nat) : Option ErrorKind :=
  if !m.checkOk then some .check
  else if !m.kindOk then some .kind
  else if !m.lengthOk then some .length
  else if m.source.toNat = address then some .self
  else if m.unexpected address then some .unexpected
  else none

end Sys2Proof
end

