-- ==== Sys2Proof/Machine/Bus.lean ====
section
/-!
DEFINITION. The Peer Bus Interface (Chapter 1): outgoing messages and their bytes, the transmit queue (R9 to R12), the
transmitter (R5 to R8), and the receiver's bookkeeping (R13, R18, R19).
-/
namespace Sys2Proof.Machine

/-! ### Outgoing messages -/

/-- 1.3: the sending class of a message. -/
def Message.cls : Message → Nat
  | .claim _ _ => 1
  | .hold _ _ => 1
  | .release _ => 1
  | .demand _ _ _ => 2
  | .spanClaim _ _ _ => 2
  | .load _ _ _ _ _ _ => 2
  | .answer _ _ _ _ _ => 3
  | .statusReply _ _ _ _ => 3
  | .testReport _ _ => 3

/-- R185: the kind code of a message. -/
def Message.kindCode : Message → Byte
  | .demand _ _ _ => 1
  | .spanClaim _ _ _ => 2
  | .load _ _ _ _ _ _ => 3
  | .claim _ _ => 4
  | .hold _ _ => 5
  | .release _ => 6
  | .testReport _ _ => 9
  | .statusReply _ _ _ _ => 11
  | .answer _ _ _ _ _ => 15

/-- R2: the destination of a message, 0 for a report or claim message. -/
def Message.dest : Message → Byte
  | .answer d _ _ _ _ => d
  | .statusReply d _ _ _ => d
  | .testReport d _ => d
  | _ => 0

/-- R185: the payload of a TEST REPORT. -/
def ResultRecord.payload (r : ResultRecord) : List Byte :=
  halfBytes r.tag ++
    [natByte r.port.val, natByte r.kind.code, r.type.code, natByte r.verdict.code, r.fail.toByte,
      natByte r.values.length] ++
    halfBytes r.start ++ halfBytes r.finish ++ r.values.flatMap StepValue.bytes ++
    (match r.cause with
     | none => []
     | some c => [natByte (causeCode (some c))])

/-- R185: the payload bytes of a message. -/
def Message.payload : Message → List Byte
  | .demand e d w => halfBytes e ++ [d, w]
  | .spanClaim e a n => halfBytes e ++ [a, n]
  | .load e ew sw fw pl t => halfBytes e ++ halfBytes ew ++ halfBytes sw ++ halfBytes fw ++ halfBytes pl ++ [t]
  | .claim r t => natByte r.val :: halfBytes t
  | .hold r t => natByte r.val :: halfBytes t
  | .release r => [natByte r.val]
  | .answer _ k tag o pos => k :: halfBytes tag ++ [o.code, pos]
  | .statusReply _ tag sel c => halfBytes tag ++ sel :: c
  | .testReport _ r => r.payload

/-- R2: the message as every station receives it, with this engine's address as source and the check of R3. -/
def Message.framed (m : Message) (address : Nat) : RxMessage :=
  { kind := m.kindCode, dest := m.dest, source := natByte address, payload := m.payload,
    check := messageCheck (m.kindCode :: m.dest :: natByte address :: natByte m.payload.length :: m.payload) }

/-- R2, R185: the characters the transmitter drives, from the start character to the second check byte. -/
def Message.characters (m : Message) (address : Nat) : List Byte :=
  0xC3#8 :: m.kindCode :: m.dest :: natByte address :: natByte m.payload.length :: m.payload ++
    halfBytes (m.framed address).check

/-- R11: an offered message supersedes a queued one of the same row of the table. -/
def Message.supersedes : Message → Message → Bool
  | .demand _ _ _, .demand _ _ _ => true
  | .spanClaim _ _ _, .spanClaim _ _ _ => true
  | .load _ _ _ _ _ _, .load _ _ _ _ _ _ => true
  | .hold r _, .hold r' _ => decide (r = r')
  | .statusReply d _ _ _, .statusReply d' _ _ _ => decide (d = d')
  | _, _ => false

/-! ### The transmit queue -/

/-- R5: the idle gap of a class. -/
def classGap (cls : Nat) : Nat :=
  match cls with
  | 1 => 12
  | 2 => 16
  | _ => 20

/-- R7: the backoff wait of an entry of this class after the failure of attempt a. -/
def backoffWait (cls address a : Nat) : Nat := classGap cls + (address + 3 * a) % 8 * 4

/-- R9: the length the transmit queue is limited to. -/
def txCapacity : Nat := 8

/-- The transmitter is in SENDING with the entry of this enqueue order. -/
def TxState.sendingOrder (t : TxState) (o : Nat) : Bool := decide (t = .sending o)

/-- The transmitter is in BACKOFF with the entry of this enqueue order. -/
def TxState.backoffOrder (t : TxState) (o : Nat) : Bool :=
  match t with
  | .backoff o' _ => decide (o' = o)
  | _ => false

/-- R10: the next entry, the first in serving order: class 1, then 2, then 3, and within a class by enqueue order. -/
def nextEntry (q : List TxEntry) : Option TxEntry :=
  (q.find? fun e => e.msg.cls = 1) <|> (q.find? fun e => e.msg.cls = 2) <|> (q.find? fun e => e.msg.cls = 3)

/-- The transmitter after an entry has left the queue that kept it: WAITING GAP, or IDLE with an empty queue (R6). -/
def txAfter (q : List TxEntry) : TxState := if q.isEmpty then .idle else .waitingGap

/-- The queue without the entry of this enqueue order. -/
def dropOrder (q : List TxEntry) (o : Nat) : List TxEntry := q.filter fun e => decide (e.order ≠ o)

/-- The state with the PBI replaced. -/
def State.setPbi (s : State) (b : Pbi) : State := { s with pbi := b }

/-- R18: TX DROPPED increases by 1. -/
def State.countTxDropped (s : State) : State := s.setPbi { s.pbi with txDropped := satInc s.pbi.txDropped }

/-- The transmitter after an entry leaves the queue other than by its own sending: in BACKOFF with that entry, or in
WAITING GAP or BACKOFF with nothing left, it moves on (R5, R8). -/
def txWithout (t : TxState) (q : List TxEntry) (o : Nat) : TxState :=
  match t with
  | .backoff o' w => if o' = o then txAfter q else .backoff o' w
  | .waitingGap => txAfter q
  | t => t

/-- R9: a message joins the queue as a new entry with attempt number 1 and the latest enqueue order. -/
def Pbi.join (b : Pbi) (m : Message) (byRestart : Bool) : Pbi :=
  { b with
    queue := b.queue ++ [⟨m, b.nextOrder, 1, .backoff, byRestart⟩]
    nextOrder := b.nextOrder + 1
    tx := if b.tx = .idle then .waitingGap else b.tx }

/-- R11: the superseding message takes the entry's place; in BACKOFF it takes the attempt number with it. -/
def Pbi.supersede (b : Pbi) (e : TxEntry) (m : Message) (byRestart : Bool) : Pbi :=
  { b with
    queue := b.queue.map fun x =>
      if x.order = e.order then
        { x with msg := m, attempt := if b.tx.backoffOrder e.order then x.attempt else 1, byRestart := byRestart }
      else x }

/-- R12: the class 3 entry with the latest enqueue order that is not in SENDING. -/
def Pbi.newestClass3 (b : Pbi) : Option TxEntry :=
  b.queue.reverse.find? fun e => decide (e.msg.cls = 3) && !b.tx.sendingOrder e.order

/-- R9, R11, R12: a block offers a message; how the PBI takes it while it is not dropping offers. -/
def Pbi.offer (b : Pbi) (m : Message) (byRestart : Bool) : Pbi :=
  match b.queue.find? fun e => m.supersedes e.msg && !b.tx.sendingOrder e.order with
  | some e => b.supersede e m byRestart
  | none =>
    if b.queue.length < txCapacity then b.join m byRestart
    else if m.cls = 3 then { b with txDropped := satInc b.txDropped }
    else
      match b.newestClass3 with
      | none => { b with txDropped := satInc b.txDropped }
      | some e =>
        let q := dropOrder b.queue e.order
        Pbi.join { b with queue := q, tx := txWithout b.tx q e.order, txDropped := satInc b.txDropped } m byRestart

/-- A block offers a message (R9). In CONFLICT it is dropped and counted (R16). -/
def State.offer (s : State) (m : Message) : State :=
  if s.csu.state = .conflict then s.countTxDropped else s.setPbi (s.pbi.offer m false)

/-- A RELEASE offered at the entry to CONFLICT, which is not dropped (R16), or a message a RESTART offers (R22). -/
def State.offerPast (s : State) (m : Message) (byRestart : Bool) : State := s.setPbi (s.pbi.offer m byRestart)

/-- R184: an ANSWER with its outcome and queue position. -/
def State.answer (s : State) (src request : Byte) (tag : Half) (o : AnswerCode) (position : Nat) : State :=
  s.offer (.answer src request tag o (natByte position))

/-! ### The transmitter -/

/-- The engine's transmitter drives a start bit: SENDING with the entry of this order. The line has been idle for 12 bit
times or more, so the receiver is in IDLE, and it takes the start character as the line carries it, by MESSAGE_BEGIN or
NON_START_CHARACTER (R5, R13; log entry 29). -/
def Pbi.startSending (b : Pbi) (o : Nat) : Pbi :=
  { b with tx := .sending o, rx := .idle, ownEnded := false, idle := 0 }

/-- R5: in WAITING GAP, the idle time reaching the class gap of the next entry starts it. -/
def Pbi.transmitStart (b : Pbi) (idle : Nat) : Pbi :=
  match b.tx, nextEntry b.queue with
  | .waitingGap, some e => if classGap e.msg.cls ≤ idle then b.startSending e.order else b
  | _, _ => b

/-- R8: in BACKOFF, the idle time reaching the backoff wait starts the collided entry again. -/
def Pbi.backoffEnd (b : Pbi) (idle : Nat) : Pbi :=
  match b.tx with
  | .backoff o w => if w ≤ idle then b.startSending o else b
  | _ => b

/-- R6: the transmission is complete. The entry leaves the queue. The receiver has heard every character of the engine's
own message, which is on its way to its end (R13; log entry 29). -/
def Pbi.complete (b : Pbi) : Pbi :=
  match b.tx with
  | .sending o =>
    let q := dropOrder b.queue o
    { b with queue := q, tx := txAfter q, rx := .receiving, ownEnded := true, idle := 0 }
  | _ => b

/-- R11, last paragraph: a newer message that would supersede the entry is still queued. -/
def Pbi.newerQueued (b : Pbi) (e : TxEntry) : Bool :=
  b.queue.any fun x => decide (x.order ≠ e.order) && x.msg.supersedes e.msg

/-- R7: what becomes of the collided entry e, after COLLISIONS has been counted. -/
def Pbi.collided (b : Pbi) (e : TxEntry) (address : Nat) : Pbi :=
  let q := dropOrder b.queue e.order
  match e.fate with
  | .dropCounted => { b with queue := q, tx := txAfter q, txDropped := satInc b.txDropped }
  | .dropSilent => { b with queue := q, tx := txAfter q }
  | .backoff =>
    if 8 ≤ e.attempt then { b with queue := q, tx := txAfter q, txDropped := satInc b.txDropped }
    else if b.newerQueued e then { b with queue := q, tx := txAfter q }
    else
      { b with
        queue := b.queue.map fun x => if x.order = e.order then { x with attempt := x.attempt + 1 } else x
        tx := .backoff e.order (backoffWait e.msg.cls address e.attempt) }

/-- R7: a character read back differs from the one driven. -/
def Pbi.collision (b : Pbi) (address : Nat) : Pbi :=
  match b.tx with
  | .sending o =>
    match b.queue.find? fun e => e.order = o with
    | some e => Pbi.collided { b with collisions := satInc b.collisions, idle := 0 } e address
    | none => b
  | _ => b

/-! ### The receiver -/

/-- The end of the engine's own message has passed: the receiver is in IDLE, and nothing is evaluated or counted
(R13). Every event that comes after the line has been idle again finds it so. -/
def Pbi.endOwn (b : Pbi) : Pbi := if b.ownEnded then { b with rx := .idle, ownEnded := false } else b

/-- R14, R18, R19: a message is discarded with this error kind. -/
def Pbi.discard (b : Pbi) (k : ErrorKind) : Pbi :=
  { b with rxDiscard := satInc b.rxDiscard, errors := b.errors.add k }

/-- R13: a character arrives in IDLE. -/
def Pbi.character (b : Pbi) (isStart : Bool) : Pbi :=
  let b := { b.endOwn with idle := 0 }
  if b.rx = .idle then { b with rx := if isStart then .receiving else .discarding } else b

/-- R13: an error inside a message, or a further character after its second check byte (the engine's own message
included), after which the receiver discards the rest of it. -/
def Pbi.receiveError (b : Pbi) (k : ErrorKind) : Pbi :=
  if b.rx = .receiving then { b.discard k with rx := .discarding, ownEnded := false, idle := 0 } else b

/-- R13: 11 idle bit times before the declared payload and check have arrived. -/
def Pbi.receiveShort (b : Pbi) : Pbi :=
  let b := b.endOwn
  if b.rx = .receiving then { b.discard .short with rx := .idle, idle := 11 } else b

/-- R13: 11 idle bit times in DISCARDING. -/
def Pbi.discardingEnd (b : Pbi) : Pbi :=
  let b := b.endOwn
  if b.rx = .discarding then { b with rx := .idle, idle := 11 } else b

end Sys2Proof.Machine
end

