-- ==== Sys2Proof/Machine/Relays.lean ====
section
/-!
DEFINITION. The conditions that the front end's source and the access-bus relay depend on, and what happens when one of
them fails: the MFE turns its source off by itself (R155), the PTC opens relays (R111, R112).
-/
namespace Sys2Proof.Machine

/-- The state with the MFE replaced. -/
def State.setMfe (s : State) (m : Mfe) : State := { s with mfe := m }

/-- R155: the conditions for the source of the MFE to be ON. -/
def State.sourceAllowed (s : State) : Bool :=
  match s.mfe.connected with
  | none => false
  | some p =>
    decide ((s.port p).state = .inTest) && !(s.line p).fvdLevel && decide (s.pmg.tier.val ≤ 2) &&
      decide ((s.claimOf (s.binderOf p)).own = .held)

/-- A source or measuring step that has been stopped gives no value (R154, R155). A calibration goes on. -/
def Mfe.stopStep (m : Mfe) : Mfe :=
  { m with
    source := .off
    charge := .idle
    activity :=
      match m.activity with
      | .calibrating a n => .calibrating a n
      | _ => .idle }

/-- R155: the MFE turns its source OFF by itself when a condition fails while it is ON; a source step in progress then
ends without a value. -/
def State.enforceSource (s : State) : State :=
  if s.mfe.source ≠ .off ∧ s.sourceAllowed = false then s.setMfe s.mfe.stopStep else s

/-- R111, R154, R158: the front-end relay of p opens. The connected port follows, a calibration under way is abandoned,
and the source goes off. -/
def State.openFrontEnd (s : State) (p : PortNo) : State :=
  let s := s.setPort p { s.port p with relayFrontEnd := false }
  if s.mfe.connected = some p then
    s.setMfe { s.mfe with connected := none, source := .off, activity := .idle, charge := .idle }
  else s

/-- R112: the conditions under which the access-bus relay of p may stay closed. -/
def State.accessAllowed (s : State) (p : PortNo) : Bool :=
  decide ((s.port p).state = .inTest) && (s.port p).returnState.isNone &&
    decide ((s.claimOf accessBus).own = .held) && decide ((s.claimOf (s.binderOf p)).own = .held)

/-- R112: the PTC opens the access-bus relay of p when a condition no longer holds. -/
def State.enforceAccessOf (s : State) (p : PortNo) : State :=
  if (s.port p).relayAccess = true ∧ s.accessAllowed p = false then
    s.setPort p { s.port p with relayAccess := false }
  else s

/-- R112, R155: after the PVU's own states or the tier have changed, the access-bus relays and the source follow. -/
def State.enforce (s : State) : State := (allPorts.foldl State.enforceAccessOf s).enforceSource

end Sys2Proof.Machine
end

