-- ==== Sys2Proof/WellFormed.lean ====
section
/-!
DEFINITION. Well-formed commands: the operand ranges the spec gives at the engine's edge. A command outside them
cannot arise; `exec` is total on it all the same (log entry 2).
-/
namespace Sys2Proof

/-- A report or claim message reaches the PVU only from an engine address, 1 to 16 (R15, R23). -/
def peerSource (src : Byte) : Bool := decide (1 ≤ src.toNat ∧ src.toNat ≤ 16)

/-- A request reaches the CSU only from a station address, 1 to 31 (R15). -/
def stationSource (src : Byte) : Bool := decide (1 ≤ src.toNat ∧ src.toNat ≤ 31)

/-- The range checks on a command's operands. -/
def Instr.wellFormed : Instr → Bool
  | .messageEnd m => decide (m.payload.length ≤ 48)
  | .demand src _ _ _ => peerSource src
  | .spanClaim src _ _ _ => peerSource src
  | .load src _ _ _ _ _ _ => peerSource src
  | .claim src _ _ => peerSource src
  | .hold src _ _ => peerSource src
  | .release src _ => peerSource src
  | .downstreamSegment _ _ len payload _ => decide (payload.length = len.toNat)
  | .testOrder src _ _ _ _ _ => stationSource src
  | .testCancel src _ => stationSource src
  | .chargeTimerStop count => decide (count ≤ 65535)
  | .configureEngine src _ _ => stationSource src
  | .configurePort src _ _ => stationSource src
  | .restart src _ => stationSource src
  | .clearEvents src _ _ pairs => stationSource src && decide (pairs.length ≤ 22)
  | .statusQueryEngine src _ _ => stationSource src
  | .statusQueryPort src _ _ _ => stationSource src
  | .statusQueryEvents src _ => stationSource src
  | .statusQueryTests src _ => stationSource src
  | .statusQueryLog src _ _ => stationSource src
  | .statusQueryClaims src _ => stationSource src
  | .statusQueryPeer src _ _ => stationSource src
  | .statusQueryUnknownSelector src _ selector => stationSource src && decide (7 ≤ selector.toNat)
  | .powerOnReset _ _ _ _ | .rxByteError | .rxLengthError | .rxShortError | .discardingEnd | .transmitStart _
  | .transmissionComplete | .collision | .backoffEnd _ | .viewEntryExpiry _ | .settleEnd _ | .holdRefresh _
  | .claimLapse _ | .holdOffEnd _ | .portDivisionCompletion | .stationShareCompletion | .powerShareCompletion
  | .frameMarker _ _ _ _ _ | .frameTimerExpiry _ | .syncLost | .epochStart | .shareCut | .packetArrival _ _
  | .drainEnd _ | .linkIndication _ _ | .fvdEdge _ _ | .gfltEdge _ _ | .isolationExit _ | .testStart | .testResume
  | .claimWaitTimeout | .calibrationAttemptEnd _ _ | .stepSettleEnd | .dischargeEnd | .stepCompletion _ _
  | .accessHoldEnd | .mainsFall | .mainsRise | .powerEpochStart | .powerEvaluation | .messageBegin
  | .nonStartCharacter => true

end Sys2Proof
end

