-- ==== Sys2Proof/Machine/Peers.lean ====
section
/-!
DEFINITION. The Peer View Unit (Chapter 2): the peer table (R23 to R27), the claim view (R28 to R32) and the engine's
own claims (R33 to R41). The notices a claim operation gives are taken by the Test Sequencer (Machine/Tests.lean).
-/
namespace Sys2Proof.Machine

/-! ### The peer table -/

/-- The state with the PVU replaced. -/
def State.setPvu (s : State) (v : Pvu) : State := { s with pvu := v }

/-- R23: an entry with no part yet. -/
def PeerEntry.fresh (x : Nat) : PeerEntry := { address := x, demand := none, spans := [], load := none }

/-- The peer-table entry of address x. -/
def State.peer? (s : State) (x : Nat) : Option PeerEntry := s.pvu.peers.find? fun e => e.address = x

/-- The entry of x, or one made for it (R23). -/
def State.peerOrFresh (s : State) (x : Nat) : PeerEntry := (s.peer? x).getD (PeerEntry.fresh x)

/-- R23: an entry put in its place in a table ordered by address, replacing the entry of the same address. -/
def putPeer (e : PeerEntry) : List PeerEntry → List PeerEntry
  | [] => [e]
  | x :: xs =>
    if e.address < x.address then e :: x :: xs
    else if e.address = x.address then e :: xs
    else x :: putPeer e xs

/-- The state with the peer-table entry put in its place. -/
def State.putPeer (s : State) (e : PeerEntry) : State :=
  s.setPvu { s.pvu with peers := Machine.putPeer e s.pvu.peers }

/-- R23: a demand part is valid while its age is at most 4. -/
def DemandPart.valid (d : DemandPart) : Bool := decide (d.age ≤ 4)

/-- R23: a load part is valid while its age is at most 2. -/
def LoadPart.valid (l : LoadPart) : Bool := decide (l.age ≤ 2)

/-- R15, R23: the PVU receives messages only from engine addresses other than its own. -/
def State.fromPeer (s : State) (src : Byte) : Bool := peerSource src && decide (src.toNat ≠ s.csu.address)

/-- R14, R15: the CSU receives requests only from station addresses other than its own. -/
def State.fromStation (s : State) (src : Byte) : Bool := stationSource src && decide (src.toNat ≠ s.csu.address)

/-- R24: the demand field is taken as 128 when it is larger, the weight as the nearer bound of 1 to 15. -/
def DemandPart.heard (epoch : Half) (amount weight : Byte) : DemandPart :=
  { epoch := epoch, demand := min 128 amount.toNat, weight := clampNat 1 15 weight.toNat, age := 0 }

/-- R24: a DEMAND from peer x. -/
def State.hearDemand (s : State) (x : Nat) (epoch : Half) (amount weight : Byte) : State :=
  s.putPeer { s.peerOrFresh x with demand := some (DemandPart.heard epoch amount weight) }

/-- R26: a LOAD from peer x; a tier above 4 is recorded as 4. -/
def State.hearLoad (s : State) (x : Nat) (epoch ew sw fw pl : Half) (tier : Byte) : State :=
  s.putPeer { s.peerOrFresh x with
    load := some { epoch := epoch, eWant := ew, sWant := sw, fWant := fw, present := pl, tier := min 4 tier.toNat,
                   age := 0 } }

/-- R25: the record a third epoch pushes out, the one with the earlier epoch of the two. Where neither epoch is
earlier the spec does not say which one leaves: `choice` decides, a free value (log entry 5). -/
def pushedOut (a b : SpanRecord) (choice : Bool) : SpanRecord :=
  if epochEarlier a.epoch b.epoch then a
  else if epochEarlier b.epoch a.epoch then b
  else if choice then a else b

/-- R25: the new list, and the record it replaced or pushed out. -/
def placeSpan (spans : List SpanRecord) (n : SpanRecord) (choice : Bool) : List SpanRecord × Option SpanRecord :=
  match spans.find? fun r => r.epoch = n.epoch with
  | some old => (spans.map fun r => if r.epoch = n.epoch then n else r, some old)
  | none =>
    match spans with
    | [a, b] =>
      let out := pushedOut a b choice
      ((if out = a then [b, n] else [a, n]), some out)
    | l => (l ++ [n], none)

/-- R25: whether the choice of `pushedOut` is drawn for this list. -/
def spanChoiceDrawn (spans : List SpanRecord) (n : SpanRecord) : Bool :=
  match spans with
  | [a, b] =>
    decide (a.epoch ≠ n.epoch) && decide (b.epoch ≠ n.epoch) && !epochEarlier a.epoch b.epoch &&
      !epochEarlier b.epoch a.epoch
  | _ => false

/-- R74: the record covers slot k: the slots start to start + length - 1 that lie in 0 to 127. -/
def SpanRecord.covers (r : SpanRecord) (k : Nat) : Bool :=
  decide (r.start.toNat ≤ k ∧ k < r.start.toNat + r.len.toNat)

/-- R74: 1 is added to the count of each slot the record covers. -/
def coverAdd (cov : List Nat) (r : SpanRecord) : List Nat :=
  cov.zipIdx.map fun (c, k) => if r.covers k then c + 1 else c

/-- R74: 1 is taken from the count of each slot the record covers. -/
def coverTake (cov : List Nat) (r : SpanRecord) : List Nat :=
  cov.zipIdx.map fun (c, k) => if r.covers k then c - 1 else c

/-- R74: the record is of the current share epoch. -/
def SpanRecord.current (r : SpanRecord) (f : Half) : Bool := decide (r.epoch.toNat = shareEpochOf f)

/-- R74: the ULS adjusts the coverage counts for a new record of peer x and the record it replaced or pushed out. -/
def State.adjustCoverage (s : State) (x : Nat) (new : SpanRecord) (old : Option SpanRecord) : State :=
  if x < s.csu.address then
    let cov := match old with
      | some o => if o.current s.uls.f then coverTake s.uls.coverage o else s.uls.coverage
      | none => s.uls.coverage
    let cov := if new.current s.uls.f then coverAdd cov new else cov
    { s with uls := { s.uls with coverage := cov } }
  else s

/-- R25, R74: a SPAN CLAIM from peer x. Its epoch is kept as received, above 8191 too (log entry 33). -/
def State.hearSpan (s : State) (x : Nat) (epoch : Half) (start len : Byte) : State :=
  let e := s.peerOrFresh x
  let n : SpanRecord := ⟨epoch, start, len⟩
  let placed := placeSpan e.spans n (Config.freeChoice s.freeDraws)
  let s := if spanChoiceDrawn e.spans n then { s with freeDraws := s.freeDraws + 1 } else s
  (s.putPeer { e with spans := placed.1 }).adjustCoverage x n placed.2

/-- R25, R27: the ages and the span list of an entry at a frame advance. -/
def PeerEntry.aged (e : PeerEntry) (newShare newPower : Bool) (epoch : Half) : PeerEntry :=
  { e with
    demand := e.demand.map fun d => if newShare then { d with age := min 5 (d.age + 1) } else d
    load := e.load.map fun l => if newPower then { l with age := min 3 (l.age + 1) } else l
    spans := if newShare then e.spans.filter fun r => !epochEarlier r.epoch epoch else e.spans }

/-- R27: an entry leaves the table when its demand and load parts are absent or invalid and its span list is empty. -/
def PeerEntry.gone (e : PeerEntry) : Bool :=
  !(e.demand.any DemandPart.valid) && !(e.load.any LoadPart.valid) && e.spans.isEmpty

/-- R25, R27: the peer table at a frame advance to frame F. -/
def State.agePeers (s : State) (newShare newPower : Bool) : State :=
  if newShare || newPower then
    let aged := s.pvu.peers.map fun e => e.aged newShare newPower (natHalf (shareEpochOf s.uls.f))
    s.setPvu { s.pvu with peers := aged.filter fun e => !e.gone }
  else s

/-! ### Comparing claims -/

/-- R29: claim A (stamp a, address x) beats claim B (stamp b, address y). -/
def beats (a : Half) (x : Nat) (b : Half) (y : Nat) : Bool :=
  stampEarlier a b || (!stampEarlier a b && !stampEarlier b a && decide (x < y))

/-! ### The engine's own claims -/

/-- R31: a view entry without a holder. -/
def ClaimEntry.cleared (c : ClaimEntry) : ClaimEntry :=
  { c with holder := none, stamp := 0, lastRefresh := 0, silence := 0 }

/-- The view records peer x as holder with stamp t, heard at frame f (R30, R35, R37). -/
def ClaimEntry.heardFrom (c : ClaimEntry) (x : Nat) (t f : Half) : ClaimEntry :=
  { c with holder := some x, stamp := t, lastRefresh := f, silence := 0 }

/-- R34: the engine begins a claim for r, or ends WAITING: it waits behind a peer holder, or offers CLAIM with a fresh
stamp and enters SETTLING. -/
def State.beginClaim (s : State) (r : ResourceNo) : State :=
  let c := s.claimOf r
  match c.holder with
  | some _ => s.setClaim r { c with own := .waiting }
  | none =>
    (s.setClaim r { c with own := .settling, ownStamp := s.uls.f, settle := 4, contested := false }).offer
      (.claim r s.uls.f)

/-- R34: a view entry has lost its holder; a WAITING claim without a hold-off then claims at once. -/
def State.viewFreed (s : State) (r : ResourceNo) : State :=
  let c := s.claimOf r
  if c.own = .waiting ∧ c.holdOff = none ∧ c.holder = none then s.beginClaim r else s

/-- R40: one own claim is given up: RELEASE is offered for a HELD or SETTLING claim, a WAITING one just ends. -/
def State.giveUp (s : State) (r : ResourceNo) : State :=
  let c := s.claimOf r
  let ended : ClaimEntry := { c with own := .none, holdOff := none, markedWaiting := false }
  match c.own with
  | .none => s.setClaim r { c with holdOff := none }
  | .waiting => s.setClaim r ended
  | .settling => (s.setClaim r ended).offer (.release r)
  | .held => (s.setClaim r ended.cleared).offer (.release r)

/-- The ACCESS wanted flag set or cleared (R33). -/
def State.setWanted (s : State) (w : Bool) : State := s.setPvu { s.pvu with accessWanted := w }

/-- R40: release all. The RELEASEs are offered in ascending resource number, so a binder's before that of ACCESS (log
entry 31). -/
def State.releaseAll (s : State) : State := ((allResources.foldl State.giveUp s).setWanted false).enforce

/-- R40: release all but binder b, in the order of release all. A binder that is not HELD is given up with the
others. -/
def State.releaseAllBut (s : State) (b : ResourceNo) : State :=
  if (s.claimOf b).own = .held then
    let s := (allResources.filter fun r => decide (r ≠ b)).foldl State.giveUp s
    ((s.setClaim b { s.claimOf b with unused := 0 }).setWanted false).enforce
  else s.releaseAll

/-- R39: the ACCESS claim when the binder is given up by conflict or by lapse: released in SETTLING or HELD, ended in
WAITING; the wanted flag is kept. -/
def State.dropAccess (s : State) : State := s.giveUp accessBus

/-- Some binder is HELD (R33, R39). -/
def State.anyBinderHeld (s : State) : Bool :=
  allBinders.any fun b => decide ((s.claimOf (binderResource b)).own = .held)

/-- The ACCESS claim begins when it is wanted, a binder is HELD and no claim for it stands (R33). -/
def State.beginAccess (s : State) : State :=
  if s.pvu.accessWanted = true ∧ s.anyBinderHeld = true ∧ (s.claimOf accessBus).own = .none then
    s.beginClaim accessBus
  else s

/-- R33: the claim binder b request, apart from the held notice of a binder that is HELD already. -/
def State.claimBinder (s : State) (b : ResourceNo) : State :=
  if (s.claimOf b).own = .none then
    let s := if allBinders.any fun x => decide (binderResource x ≠ b) &&
                  decide ((s.claimOf (binderResource x)).own ≠ .none) then s.releaseAll else s
    s.beginClaim b
  else s

/-- R33: the claim ACCESS request. -/
def State.claimAccess (s : State) : State := (s.setWanted true).beginAccess

/-- The TSQ marks the claim for binder b waiting (2.4, R38). -/
def State.markWaiting (s : State) (b : ResourceNo) : State :=
  s.setClaim b { s.claimOf b with markedWaiting := true, unused := 0 }

/-- The TSQ marks the claim for binder b in use (2.4, R38). -/
def State.markInUse (s : State) (b : ResourceNo) : State :=
  s.setClaim b { s.claimOf b with markedWaiting := false }

/-- R35: the settle ends: the claim becomes HELD, and a contested claim offers HOLD. A wanted ACCESS claim then begins
(R33), so its CLAIM is offered behind that HOLD, and the held notice comes last (log entry 32; Machine/Tests.lean). -/
def State.enterHeld (s : State) (r : ResourceNo) : State :=
  let c := s.claimOf r
  let s := s.setClaim r
    { c with own := .held, holder := some s.csu.address, stamp := c.ownStamp, lastRefresh := s.uls.f, silence := 0,
             settle := 0, refresh := 0, unused := 0, markedWaiting := false }
  let s := if c.contested then s.offer (.hold r c.ownStamp) else s
  if r = accessBus then s else s.beginAccess

/-- R36: HOLD with the own stamp is offered and the refresh count starts again. -/
def State.offerHold (s : State) (r : ResourceNo) : State :=
  let c := s.claimOf r
  (s.setClaim r { c with refresh := 0 }).offer (.hold r c.ownStamp)

/-- R37: a HELD claim is beaten by the HOLD of peer x with stamp t and given up; the lost notice follows
(Machine/Tests.lean). -/
def State.loseClaim (s : State) (r : ResourceNo) (x : Nat) (t : Half) : State :=
  let c := s.claimOf r
  let s := (s.setClaim r { c.heardFrom x t s.uls.f with own := .waiting, markedWaiting := false }).offer (.release r)
  let s := if r = accessBus then s else s.dropAccess
  s.enforce

/-- R38: a HELD binder claim lapses: RELEASE, a cleared view entry, WAITING with a hold-off of 4, and R39 for ACCESS. -/
def State.lapseClaim (s : State) (r : ResourceNo) : State :=
  let c := s.claimOf r
  let s := (s.setClaim r { c.cleared with own := .waiting, holdOff := some 4, markedWaiting := false }).offer
    (.release r)
  s.dropAccess.enforce

/-- R38: the hold-off ends and the PVU applies R34. -/
def State.endHoldOff (s : State) (r : ResourceNo) : State :=
  (s.setClaim r { s.claimOf r with holdOff := none }).viewFreed r

/-- R32: a view entry expires. -/
def State.expireView (s : State) (r : ResourceNo) : State :=
  (s.setClaim r (s.claimOf r).cleared).viewFreed r

/-- R30: a CLAIM or HOLD heard while the own state is NONE or WAITING: X becomes or stays holder, unless the recorded
peer's claim beats X's. -/
def State.observe (s : State) (r : ResourceNo) (x : Nat) (t : Half) : State :=
  let c := s.claimOf r
  let taken := match c.holder with
    | none => true
    | some y => decide (y = x) || beats t x c.stamp y
  if taken then s.setClaim r (c.heardFrom x t s.uls.f) else s

/-- R35: a CLAIM or HOLD heard while SETTLING: the settle is lost to a claim that beats the own one, and contested by
any other. -/
def State.contest (s : State) (r : ResourceNo) (x : Nat) (t : Half) : State :=
  let c := s.claimOf r
  if beats t x c.ownStamp s.csu.address then s.setClaim r { c.heardFrom x t s.uls.f with own := .waiting }
  else s.setClaim r { c with contested := true }

/-- R31: a RELEASE from peer x. -/
def State.hearRelease (s : State) (r : ResourceNo) (x : Nat) : State :=
  if (s.claimOf r).holder = some x then (s.setClaim r (s.claimOf r).cleared).viewFreed r else s

/-- R41: the entry to CONFLICT or a RESTART: one RELEASE for each HELD or SETTLING resource in ascending number, and
every own claim ends. -/
def State.releaseForReset (s : State) (byRestart : Bool) : State :=
  let one (s : State) (r : ResourceNo) : State :=
    let c := s.claimOf r
    let ended : ClaimEntry := { c with own := .none, holdOff := none, markedWaiting := false }
    match c.own with
    | .held => (s.setClaim r ended.cleared).offerPast (.release r) byRestart
    | .settling => (s.setClaim r ended).offerPast (.release r) byRestart
    | _ => s.setClaim r ended
  ((allResources.foldl one s).setWanted false).enforce

/-! ### The counts of the claim protocol -/

/-- R42: the counts of one claim-view entry at a frame advance: silence (R32), settle (R35), refresh (R36), the unused
count of a binder (R38, not while the ACCESS claim is SETTLING) and the hold-off (R38). -/
def ClaimEntry.counted (c : ClaimEntry) (binder accessSettling : Bool) : ClaimEntry :=
  { c with
    silence := if c.holder.isSome ∧ c.own ≠ .held then min 200 (c.silence + 1) else c.silence
    settle := if c.own = .settling then c.settle - 1 else c.settle
    refresh := if c.own = .held then c.refresh + 1 else c.refresh
    unused :=
      if binder = true ∧ c.own = .held ∧ c.markedWaiting = true ∧ accessSettling = false then c.unused + 1
      else c.unused
    holdOff := c.holdOff.map fun n => n - 1 }

/-- R42: every claim count advances by one. -/
def State.countClaims (s : State) : State :=
  let settling := decide ((s.claimOf accessBus).own = .settling)
  allResources.foldl (fun s r => s.setClaim r ((s.claimOf r).counted (decide (r ≠ accessBus)) settling)) s

/-- R32: the silence of a peer-held entry has reached 200. -/
def ClaimEntry.expired (c : ClaimEntry) : Bool := c.holder.isSome && decide (c.own ≠ .held) && decide (200 ≤ c.silence)

/-- R35: the settle count has reached 0. -/
def ClaimEntry.settled (c : ClaimEntry) : Bool := decide (c.own = .settling) && decide (c.settle = 0)

/-- R36: the refresh count has reached 64. -/
def ClaimEntry.refreshDue (c : ClaimEntry) : Bool := decide (c.own = .held) && decide (64 ≤ c.refresh)

/-- R38: the unused count of a claim marked waiting has reached 32. -/
def ClaimEntry.lapseDue (c : ClaimEntry) : Bool :=
  decide (c.own = .held) && c.markedWaiting && decide (32 ≤ c.unused)

/-- R38: the hold-off has run out. -/
def ClaimEntry.holdOffDue (c : ClaimEntry) : Bool := decide (c.holdOff = some 0)

end Sys2Proof.Machine
end

