-- ==== Sys2Proof/Machine/Queues.lean ====
section
/-!
DEFINITION. The segments of the twelve ports and the 512 buffers that hold them: admission (R97), the packet queues
(R99), the transmit and in-flight lists (R86, R87), status handling (R88 to R91), the retransmit list (R92) and the
discards (R93, R104).
-/
namespace Sys2Proof.Machine

/-- The state with the ULS replaced. -/
def State.setUls (s : State) (u : Uls) : State := { s with uls := u }

/-- R95: n buffers return to the free count. -/
def State.freeBuffers (s : State) (n : Nat) : State := { s with pqm := { s.pqm with free := s.pqm.free + n } }

/-- R95: n buffers leave the free count. -/
def State.takeBuffers (s : State) (n : Nat) : State := { s with pqm := { s.pqm with free := s.pqm.free - n } }

/-- The state with the counters of port p changed. -/
def State.count (s : State) (p : PortNo) (f : PortCounters → PortCounters) : State :=
  s.setPq p { s.pq p with counters := f (s.pq p).counters }

/-- R96: a queue's queued count, the sum of the remaining counts of its records. -/
def queuedCount (q : List PacketRecord) : Nat := (q.map PacketRecord.remaining).sum

/-- R96: the queued count of port p. -/
def State.queued (s : State) (p : PortNo) : Nat := queuedCount (s.pq p).queue

/-- R92: the number of retransmit entries of port p. -/
def State.retransmits (s : State) (p : PortNo) : Nat := (s.uls.retransmit.filter fun e => decide (e.port = p)).length

/-- R79: the held count of port p. -/
def State.held (s : State) (p : PortNo) : Nat := s.retransmits p + s.queued p

/-- R79: port p is eligible. -/
def State.eligible (s : State) (p : PortNo) : Bool :=
  (s.port p).state.serving && (s.port p).link && decide (1 ≤ s.held p)

/-- R79: the frame demand of port p. -/
def State.frameDemand (s : State) (p : PortNo) : Nat := min 16 (s.held p)

/-! ### Admission -/

/-- R96: the segments a packet of this length is carried as. -/
def segmentsOf (len : Nat) : Nat := (len + 63) / 64

/-- R97: the packet's bytes cut into buffers of 64 bytes and the rest. -/
def cutSegments : Nat → List Byte → List (List Byte)
  | 0, _ => []
  | n + 1, bs => bs.take 64 :: cutSegments n (bs.drop 64)

/-- R97: the packet is admitted into s buffers. -/
def State.admitPacket (s : State) (p : PortNo) (data : List Byte) : State :=
  let q := s.pq p
  let n := segmentsOf data.length
  let record : PacketRecord :=
    { number := q.next, length := data.length, total := n, remaining := n, admitted := s.uls.f,
      buffers := cutSegments n data }
  let s := (s.takeBuffers n).setPq p { q with queue := q.queue ++ [record], next := q.next + 1 }
  s.setUls { s.uls with admitted := min 65535 (s.uls.admitted + n) }

/-- R97: a packet arrives from the transceiver of port p and is admitted, or dropped and counted under the first
condition that fails. A delivery of 0 bytes is not a packet, and one longer than 1536 bytes fails the second. -/
def State.arrive (s : State) (p : PortNo) (data : List Byte) : State :=
  let n := segmentsOf data.length
  if data.length = 0 then s
  else if (s.port p).state ≠ .inService then
    s.count p fun c => { c with notInService := satInc c.notInService }
  else if 1536 < data.length ∨ (s.part p).limit < s.held p + n then
    s.count p fun c => { c with portLimit := satInc c.portLimit }
  else if s.pqm.free < n then s.count p fun c => { c with poolEmpty := satInc c.poolEmpty }
  else s.admitPacket p data

/-! ### Segments handed to the lane -/

/-- R99: the next unsent segment of the head packet of port p, and the queue without it. -/
def takeQueued (q : List PacketRecord) : Option ((Half × Nat × Bool × List Byte) × List PacketRecord) :=
  match q with
  | [] => none
  | r :: rest =>
    let i := r.total - r.remaining
    let segment := (r.number, i, decide (i + 1 = r.total), r.buffers.headD [])
    if r.remaining ≤ 1 then some (segment, rest)
    else some (segment, { r with remaining := r.remaining - 1, buffers := r.buffers.tail } :: rest)

/-- R86: the oldest retransmit entry of port p, and the list without it. -/
def takeRetransmit (l : List RetransmitEntry) (p : PortNo) : Option (RetransmitEntry × List RetransmitEntry) :=
  match l with
  | [] => none
  | e :: rest =>
    if e.port = p then some (e, rest)
    else
      match takeRetransmit rest p with
      | some (x, rest') => some (x, e :: rest')
      | none => none

/-- R87: an in-flight entry put in its place, in ascending slot order. -/
def insertInFlight (e : InFlightEntry) : List InFlightEntry → List InFlightEntry
  | [] => [e]
  | x :: xs => if e.slot < x.slot then e :: x :: xs else x :: insertInFlight e xs

/-- R86, R87: one granted slot of port p is filled: a retransmit entry goes out with its attempt increased by 1, and
otherwise the next queued segment with attempt 1. It enters the in-flight list. -/
def State.fillSlot (s : State) (p : PortNo) (frame : Half) (slot : Nat) : State :=
  match takeRetransmit s.uls.retransmit p with
  | some (e, rest) =>
    let x : InFlightEntry :=
      { port := p, packet := e.packet, index := e.index, last := e.last, attempt := e.attempt + 1, slot := slot,
        frame := frame, payload := e.payload }
    s.setUls { s.uls with retransmit := rest, inFlight := insertInFlight x s.uls.inFlight }
  | none =>
    match takeQueued (s.pq p).queue with
    | some ((number, index, last, payload), rest) =>
      let x : InFlightEntry :=
        { port := p, packet := number, index := index, last := last, attempt := 1, slot := slot, frame := frame,
          payload := payload }
      (s.setPq p { s.pq p with queue := rest }).setUls { s.uls with inFlight := insertInFlight x s.uls.inFlight }
    | none => s

/-- R60, R185: the bytes of an upstream segment as the lane transmitter sends them. Bits 6 and 5 of the byte of the last
flag and the index, which R185 assigns to nothing, are 0: DESIGN CHOICE, log entry 49 (unsafe). -/
def InFlightEntry.laneBytes (e : InFlightEntry) (address : Nat) : List Byte :=
  let body := natByte address :: natByte e.port.val :: halfBytes e.packet ++
    natByte ((if e.last then 128 else 0) + e.index) :: natByte e.payload.length :: e.payload
  body ++ halfBytes (messageCheck body)

/-! ### The status of a slot -/

/-- R58: the status of one slot. -/
inductive SlotStatus | empty | delivered | garbled
deriving DecidableEq, Repr

/-- R185: 2 bits per slot, slot 0 in the two highest bits of the first byte; code 3 is taken as GARBLED. -/
def slotStatus (status : Vector Byte 32) (slot : Nat) : SlotStatus :=
  let b := (status.toList.getD (slot / 4) 0).toNat
  match b / 4 ^ (3 - slot % 4) % 4 with
  | 0 => .empty
  | 1 => .delivered
  | _ => .garbled

/-- R89: an entry is finished; its buffer is free. -/
def State.finishSegment (s : State) (_e : InFlightEntry) : State := s.freeBuffers 1

/-- R90: an entry has failed: it joins the retransmit list, is lost at its third attempt, or is discarded for a port
that is OFF or UNFITTED. -/
def State.failSegment (s : State) (e : InFlightEntry) : State :=
  if 3 ≤ e.attempt then
    (s.freeBuffers 1).count e.port fun c => { c with segmentLost := satInc c.segmentLost }
  else if (s.port e.port).state = .off ∨ (s.port e.port).state = .unfitted then
    (s.freeBuffers 1).count e.port fun c => { c with discarded := satInc c.discarded }
  else
    s.setUls { s.uls with retransmit := s.uls.retransmit ++
      [{ port := e.port, packet := e.packet, index := e.index, last := e.last, attempt := e.attempt,
         payload := e.payload }] }

/-- R91: an entry is released as unconfirmed. -/
def State.releaseSegment (s : State) (e : InFlightEntry) : State :=
  (s.freeBuffers 1).count e.port fun c => { c with unconfirmed := satInc c.unconfirmed }

/-- R67, R76, R91: every in-flight entry is released as unconfirmed, and the list is empty. -/
def State.releaseInFlight (s : State) : State :=
  let l := s.uls.inFlight
  l.foldl State.releaseSegment (s.setUls { s.uls with inFlight := [] })

/-- R89, R90: one entry by the status of its slot. -/
def State.settleSegment (status : Vector Byte 32) (s : State) (e : InFlightEntry) : State :=
  match slotStatus status e.slot with
  | .delivered => s.finishSegment e
  | _ => s.failSegment e

/-- R88: the status list of a valid marker numbered `number`: every in-flight entry is handled by its slot's status
when the number is the in-flight frame plus 1, and released as unconfirmed otherwise. -/
def State.takeStatus (s : State) (number : Half) (status : Vector Byte 32) : State :=
  match s.uls.inFlight with
  | [] => s
  | e :: rest =>
    if number = e.frame + 1 then
      (e :: rest).foldl (State.settleSegment status) (s.setUls { s.uls with inFlight := [] })
    else s.releaseInFlight

/-- R66, R88, R94: the in-flight entries at a marker that is not late: a numbering jump releases them as unconfirmed,
whatever its number (log entry 34), and any other marker handles them by its status list. -/
def State.markerStatus (s : State) (jump : Bool) (number : Half) (status : Vector Byte 32) : State :=
  if jump then s.releaseInFlight else s.takeStatus number status

/-! ### Discards -/

/-- R84: the entries of port p leave the grant map. -/
def State.clearMapOf (s : State) (p : PortNo) : State :=
  s.setUls { s.uls with grantMap := s.uls.grantMap.filter fun x => decide (x.2 ≠ p) }

/-- R93: the retransmit entries of port p leave the list, and their buffers are free. -/
def State.discardRetransmits (s : State) (p : PortNo) : State :=
  let n := s.retransmits p
  (s.setUls { s.uls with retransmit := s.uls.retransmit.filter fun e => decide (e.port ≠ p) }).freeBuffers n

/-- R104: the queues of port p are discarded: its queued segments and retransmit entries, counted together. -/
def State.discardQueues (s : State) (p : PortNo) : State :=
  let q := s.queued p
  let n := s.held p
  let s := (s.setPq p { s.pq p with queue := [] }).freeBuffers q
  ((s.discardRetransmits p).count p fun c => { c with discarded := satAdd c.discarded n }).clearMapOf p

/-- R76, R93, R107: on entry to CONFLICT the retransmit entries of port p are discarded and counted. -/
def State.discardForConflict (s : State) (p : PortNo) : State :=
  let n := s.retransmits p
  (s.discardRetransmits p).count p fun c => { c with discarded := satAdd c.discarded n }

/-- R59, R105: a downstream payload goes to the transceiver of p, or is dropped and counted. -/
def State.deliver (s : State) (p : PortNo) (payload : List Byte) : State :=
  if (s.port p).state.serving = true ∧ (s.port p).link = true then { s with delivered := some (p, payload) }
  else s.count p fun c => { c with downstreamDropped := satInc c.downstreamDropped }

end Sys2Proof.Machine
end

