-- ==== Sys2Proof/Machine/Ports.lean ====
section
/-!
DEFINITION. The Port Controller (Chapter 7): the port records, their relays, and the requests of R113 to R120. What a
request tells the Test Sequencer is part of its answer; the TSQ's reaction stands in Machine/Tests.lean.
-/
namespace Sys2Proof.Machine

/-- R110: the link status after a change of state: kept while the port stays IN SERVICE or DRAINING, and down
otherwise. -/
def linkAfter (old new : PortState) (link : Bool) : Bool := old.serving && new.serving && link

/-- R109, R110: the record of a port that enters a state, with its relays and its link status. Front-end and access-bus
relays stay closed only in IN TEST (R111, R112), and no take waits at an entry (R113: one waits for a drain under way). -/
def PortRecord.entered (r : PortRecord) (st : PortState) : PortRecord :=
  { r with
    state := st
    takeWaiting := false
    link := linkAfter r.state st r.link
    relayTransceiver := st.serving
    relayFrontEnd := decide (st = .inTest) && r.relayFrontEnd
    relayAccess := decide (st = .inTest) && r.relayAccess }

/-- R132: the exit count of port p becomes 0. -/
def State.clearExit (s : State) (p : PortNo) : State := s.setLine p { s.line p with exit := 0 }

/-- R100, R103: the drain state of port p is cleared. -/
def State.clearDrain (s : State) (p : PortNo) : State := s.setPq p { s.pq p with drainCount := 0 }

/-- Port p, whose record has become r in its other fields, enters a state. The front-end relay opens through the MFE
when the port leaves IN TEST (R111), a drain ends with DRAINING (R103), entries of a port that does not serve leave the
grant map (R84), an entry to ISOLATED starts the exit count (R132), an entry to OFF discards the queues (R104), and a
LINK level cell that becomes pending may ask (R125, R130). -/
def State.enterAs (s : State) (p : PortNo) (r : PortRecord) (st : PortState) : State :=
  let pending := s.cellPending p .link
  let s := if st ≠ .inTest then s.openFrontEnd p else s
  let s := s.setPort p (r.entered st)
  let s := if st.isDraining then s else s.clearDrain p
  let s := if st.serving then s else s.clearMapOf p
  let s := if st = .isolated then s.clearExit p else s
  let s := if st = .off then s.discardQueues p else s
  if pending then s else s.levelAsk p .link

/-- Port p enters a state, its record otherwise as it stands. -/
def State.enter (s : State) (p : PortNo) (st : PortState) : State := s.enterAs p (s.port p) st

/-- The shed-pending flag of port p. -/
def State.setShedPending (s : State) (p : PortNo) (x : Bool) : State := s.setPort p { s.port p with shedPending := x }

/-- The take waiting flag of port p. -/
def State.setTakeWaiting (s : State) (p : PortNo) (x : Bool) : State := s.setPort p { s.port p with takeWaiting := x }

/-- The return state of port p. -/
def State.setReturn (s : State) (p : PortNo) (x : Option ReturnState) : State :=
  s.setPort p { s.port p with returnState := x }

/-- R108: the isolation of port p is in force. -/
def State.isolationInForce (s : State) (p : PortNo) : Bool := (s.port p).returnState.isSome

/-- R100: a drain starts with a count of 16. -/
def State.startDrain (s : State) (p : PortNo) (reason : DrainReason) : State :=
  let s := s.enter p (.draining reason)
  s.setPq p { s.pq p with drainCount := 16 }

/-- The PTC's immediate outcome of a take: GIVEN, a drain for TEST under way, a take waiting, or REFUSED (R113, R139). -/
inductive TakeOutcome | given | draining | waits | refused
deriving DecidableEq, Repr

/-- R113: a take for port p by a test of this kind. A drain of a port that holds nothing ends at once (R100, R101). -/
def State.take (s : State) (p : PortNo) (k : TestKind) : State × TakeOutcome :=
  match (s.port p).state with
  | .unfitted => (s, .refused)
  | .inService =>
    let s := s.startDrain p .test
    if s.held p = 0 then (s.enter p .inTest, .given) else (s, .draining)
  | .draining .test => (s, .refused)
  | .draining .shed => (s.setTakeWaiting p true, .waits)
  | .inTest => (s, .refused)
  | .isolated => if k = .fv then (s.enter p .inTest, .given) else (s, .refused)
  | .off => (s.enter p .inTest, .given)

/-- R116: a shed for port p. -/
def State.shed (s : State) (p : PortNo) : State :=
  match (s.port p).state with
  | .unfitted => s
  | .inService =>
    let s := s.startDrain p .shed
    if s.held p = 0 then s.enter p .off else s
  | .draining .test => s.setShedPending p true
  | .draining .shed => s
  | .off => s
  | .inTest => if s.isolationInForce p then s.setReturn p (some .off) else s.setShedPending p true
  | .isolated => s.setReturn p (some .off)

/-- R115: a return for port p. -/
def State.returnPort (s : State) (p : PortNo) : State :=
  let r := s.port p
  match r.state with
  | .inTest =>
    if (s.line p).fvdLevel || s.isolationInForce p then
      let back := r.returnState.getD (if r.shedPending || decide (s.pmg.tier = 4) then .off else .inService)
      s.enterAs p { r with returnState := some back, shedPending := false } .isolated
    else if r.shedPending || decide (s.pmg.tier = 4) then s.enterAs p { r with shedPending := false } .off
    else s.enter p .inService
  | .draining .test =>
    if s.pmg.tier = 4 then s.enterAs p { r with shedPending := false } .off
    else
      let s := s.enterAs p { r with shedPending := false } .inService
      if r.shedPending then s.shed p else s
  | .draining .shed => s.setTakeWaiting p false
  | _ => s

/-- R117: a shed at once for port p, and whether a take is withdrawn by it. -/
def State.shedAtOnce (s : State) (p : PortNo) : State × Bool :=
  let r := s.port p
  match r.state with
  | .unfitted => (s, false)
  | .inService => (s.enter p .off, false)
  | .draining reason =>
    (s.enterAs p { r with shedPending := false } .off, decide (reason = .test) || r.takeWaiting)
  | .inTest =>
    if s.isolationInForce p then
      (s.enterAs p { r with returnState := some .off, shedPending := false } .isolated, true)
    else (s.enterAs p { r with shedPending := false } .off, true)
  | .isolated => (s.setReturn p (some .off), false)
  | .off => (s, false)

/-- R118: a restore for port p. The answer tells whether a waiting take has moved to a drain for TEST (`some false`),
or has been answered GIVEN at the end of that drain at the same event (`some true`). -/
def State.restore (s : State) (p : PortNo) (k : TestKind) : State × Option Bool :=
  let r := s.port p
  match r.state with
  | .unfitted => (s, none)
  | .inService => (s, none)
  | .draining .test => (s.setShedPending p false, none)
  | .draining .shed =>
    let s := s.enter p .inService
    if r.takeWaiting then
      let (s, out) := s.take p k
      (s, some (decide (out = .given)))
    else (s, none)
  | .inTest => if s.isolationInForce p then (s.setReturn p (some .inService), none) else (s.setShedPending p false, none)
  | .isolated => (s.setReturn p (some .inService), none)
  | .off => (s.enter p .inService, none)

/-- What an isolate tells the TSQ: nothing, a withdrawn take, or that the isolation has come into force in IN TEST. -/
inductive IsolateOutcome | none | withdrawn | inForce
deriving DecidableEq, Repr

/-- A record as its isolation comes into force with this return state (R119). -/
def PortRecord.isolateWith (r : PortRecord) (back : ReturnState) : PortRecord :=
  { r with returnState := some back, shedPending := false, takeWaiting := false }

/-- R119: an isolate for port p. -/
def State.isolate (s : State) (p : PortNo) : State × IsolateOutcome :=
  let r := s.port p
  let back : ReturnState := if r.shedPending then .off else .inService
  match r.state with
  | .unfitted => (s, .none)
  | .inService => (s.enterAs p (r.isolateWith .inService) .isolated, .none)
  | .draining .test => (s.enterAs p (r.isolateWith back) .isolated, .withdrawn)
  | .draining .shed => (s.enterAs p (r.isolateWith .off) .isolated, if r.takeWaiting then .withdrawn else .none)
  | .inTest =>
    if s.isolationInForce p then (s, .none)
    else (s.setPort p { r.isolateWith back with relayAccess := false }, .inForce)
  | .isolated => (s, .none)
  | .off => (s.enterAs p (r.isolateWith .off) .isolated, .none)

/-- R120: an unisolate for port p. -/
def State.unisolate (s : State) (p : PortNo) : State :=
  let r := s.port p
  match r.state, r.returnState with
  | .isolated, some .off => s.enterAs p { r with returnState := none } .off
  | .isolated, some .inService => s.enterAs p { r with returnState := none } .inService
  | _, _ => s

/-- R111: a connect of port p to the front end is carried out. -/
def State.frontEndFree (s : State) (p : PortNo) : Bool :=
  decide ((s.port p).state = .inTest) && !(s.port p).relayAccess &&
    allPorts.all fun q => decide (q = p) || !(s.port q).relayFrontEnd

/-- R111, R154: port p is connected to the front end. -/
def State.connectFrontEnd (s : State) (p : PortNo) : State :=
  let s := s.setPort p { s.port p with relayFrontEnd := true }
  s.setMfe { s.mfe with connected := some p }

/-- R112: a connect of port p to the access bus is carried out. -/
def State.accessBusFree (s : State) (p : PortNo) : Bool :=
  s.accessAllowed p && !(s.port p).relayFrontEnd && allPorts.all fun q => decide (q = p) || !(s.port q).relayAccess

/-- R112: port p is connected to the access bus. -/
def State.connectAccess (s : State) (p : PortNo) : State := s.setPort p { s.port p with relayAccess := true }

/-- R111, R112: port p is disconnected from the front end and from the access bus. -/
def State.disconnect (s : State) (p : PortNo) : State :=
  let s := s.openFrontEnd p
  s.setPort p { s.port p with relayAccess := false }

/-- R110, R122: a link indication of port p, recorded while the port is IN SERVICE or DRAINING; a link that goes down
takes the port's entries off the grant map (R84), and a change is an edge of LINK. -/
def State.linkIndication (s : State) (p : PortNo) (up : Bool) : State :=
  if (s.port p).state.serving = true ∧ (s.port p).link ≠ up then
    let s := s.setPort p { s.port p with link := up }
    let s := if up then s else s.clearMapOf p
    s.cellEdge p .link up
  else s

end Sys2Proof.Machine
end

