-- ==== Sys2Proof/Machine/Front.lean ====
section
/-!
DEFINITION. The Measurement Front End (Chapter 10): sampling and the mean (R157), calibration (R158), the source
(R155), the values of the steps (R161 to R164), and the verdict, fail set and values list (R165).
-/
namespace Sys2Proof.Machine

/-! ### Sampling -/

/-- R157: a value is clamped to -32000 to 32000. -/
def clampSample (x : Int) : Int := max (-32000) (min 32000 x)

/-- R157: the samples of one channel, clamped. -/
def clamped (xs : Samples) : List Int := xs.toList.map clampSample

/-- R157: the sum divided by 16, rounded to the nearest integer with a half rounded away from zero. -/
def roundMean (sum : Int) : Int := if 0 ≤ sum then (sum + 8) / 16 else -((-sum + 8) / 16)

/-- R157: the mean of 16 samples before any offset is removed, as a calibration takes it. -/
def rawMean (xs : Samples) : Int := clampSample (roundMean (clamped xs).sum)

/-- R157: the mean with the channel's offset removed after rounding, clamped. -/
def offsetMean (xs : Samples) (offset : Option Int) : Int :=
  clampSample (roundMean (clamped xs).sum - offset.getD 0)

/-- R157: a sample reaches 32000 in magnitude. -/
def overRange (xs : Samples) : Bool := (clamped xs).any fun x => decide (x = 32000 ∨ x = -32000)

/-- R157: the largest sample less the smallest exceeds 200. -/
def acFlag (xs : Samples) : Bool :=
  let l := clamped xs
  decide (200 < l.foldl max (-32000) - l.foldl min 32000)

/-! ### Programs -/

/-- R143: the steps of each kind's program, in order. -/
def TestKind.program : TestKind → List (StepKind × Wires)
  | .fv => [(.voltage, .tg), (.voltage, .rg), (.voltage, .tr)]
  | .ir =>
    [(.voltage, .tg), (.voltage, .rg), (.voltage, .tr), (.selfCheck, .tr), (.resistance, .tg), (.resistance, .rg),
      (.resistance, .tr)]
  | .cap => [(.charge, .tr), (.charge, .tg), (.charge, .rg)]
  | .full =>
    [(.voltage, .tg), (.voltage, .rg), (.voltage, .tr), (.selfCheck, .tr), (.resistance, .tg), (.resistance, .rg),
      (.resistance, .tr), (.charge, .tr), (.charge, .tg), (.charge, .rg)]
  | .access => []

/-- R143: the frames a step kind settles. -/
def StepKind.settle : StepKind → Nat
  | .voltage => 2
  | .selfCheck => 8
  | .resistance => 8
  | .charge => 4

/-- 9.4: a step that needs the source. -/
def StepKind.needsSource : StepKind → Bool
  | .voltage => false
  | _ => true

/-- Step n of a kind's program, counted from 1. -/
def TestKind.stepAt (k : TestKind) (n : Nat) : Option (StepKind × Wires) :=
  if n = 0 then none else k.program[n - 1]?

/-! ### The values of the steps -/

/-- R161: the value of a voltage step. -/
def voltageValue (m : Mfe) (main : Samples) : StepValue :=
  { value := offsetMean main m.mainOffset, overRange := overRange main, ac := acFlag main, limit := false }

/-- R162: the resistance in kilohms that the mean Vm gives. -/
def resistanceOf (vm : Int) : Int :=
  if vm ≤ 0 then 0
  else if 4999 ≤ vm then 99999
  else
    let d := 5000 - vm
    min 99999 ((2 * (100 * vm) + d) / (2 * d))

/-- R162: the value of a resistance step; SHORT and OPEN are carried by the LIMIT flag (R185). -/
def resistanceValue (m : Mfe) (main : Samples) : StepValue :=
  let vm := offsetMean main m.mainOffset
  { value := resistanceOf vm, overRange := overRange main, ac := acFlag main,
    limit := decide (vm ≤ 0) || decide (4999 ≤ vm) }

/-- R163: the count of the charge timer when the step ends: 65535 with the timer still running. -/
def ChargeTimer.count : ChargeTimer → Nat
  | .stopped t => t
  | _ => 65535

/-- R163: the value of a charge-time step, in picofarads. -/
def chargeValue (m : Mfe) (main : Samples) : StepValue :=
  let t := m.charge.count
  { value := 10 * t, overRange := decide (t = 65535), ac := acFlag main, limit := false }

/-- R160: the self-check passes. -/
def selfCheckPasses (m : Mfe) (check : Samples) : Bool :=
  let v := offsetMean check m.checkOffset
  decide (4950 ≤ v ∧ v ≤ 5050)

/-- R161 to R163: the value of a step, none for the self-check. -/
def stepValue (m : Mfe) (main : Samples) : StepKind → Option StepValue
  | .voltage => some (voltageValue m main)
  | .selfCheck => none
  | .resistance => some (resistanceValue m main)
  | .charge => some (chargeValue m main)

/-! ### Evaluation -/

/-- R165: the failures, in the order of their codes. -/
inductive Failure | foreign | lowIr | open | unbalanced
deriving DecidableEq, Repr

/-- The verdict a failure gives. -/
def Failure.verdict : Failure → Verdict
  | .foreign => .foreign
  | .lowIr => .lowIr
  | .open => .open
  | .unbalanced => .unbalanced

/-- R161 to R163: the failure of one completed step, if it fails. -/
def stepFailure (e : EnginePart) (k : StepKind × Wires) (v : StepValue) : Option Failure :=
  match k with
  | (.voltage, _) => if e.fvLimit < v.value.natAbs then some .foreign else none
  | (.resistance, _) => if v.value < e.irThreshold then some .lowIr else none
  | (.charge, .tr) => if v.value < 1000 then some .open else none
  | _ => none

/-- R165: the steps of a program that add a value. -/
def TestKind.valued (k : TestKind) : List (StepKind × Wires) := k.program.filter fun x => decide (x.1 ≠ .selfCheck)

/-- R164: 100 times the difference divided by the larger, rounded half up, 0 when both are 0. -/
def balanceOf (tg rg : Nat) : Nat :=
  let m := max tg rg
  if m = 0 then 0 else (2 * (100 * (m - min tg rg)) + m) / (2 * m)

/-- R164: C_TR divided by the capacitance per kilometre, rounded half up. -/
def lengthOf (tr kmcap : Nat) : Nat := (2 * tr + kmcap) / (2 * kmcap)

/-- R164: the two derived values of a test whose three charge-time values are the last of a full list. -/
def derivedValues (e : EnginePart) (k : TestKind) (vs : List StepValue) : List StepValue :=
  let charged := match k with
    | .cap => if vs.length = 3 then vs else []
    | .full => if vs.length = 9 then vs.drop 6 else []
    | _ => []
  match charged with
  | [tr, tg, rg] =>
    [{ value := balanceOf tg.value.natAbs rg.value.natAbs, overRange := tg.overRange || rg.overRange, ac := false,
       limit := false },
     { value := lengthOf tr.value.natAbs e.kmcap, overRange := tr.overRange, ac := false, limit := false }]
  | _ => []

/-- R164, R165: the failures of a test, in program order, UNBALANCED after the last charge-time step. -/
def failures (e : EnginePart) (k : TestKind) (vs : List StepValue) : List Failure :=
  ((k.valued.zip vs).filterMap fun x => stepFailure e x.1 x.2) ++
    (match derivedValues e k vs with
     | b :: _ => if (e.balanceLimit : Int) < b.value then [.unbalanced] else []
     | [] => [])

/-- R165: the fail set. -/
def failSet (fs : List Failure) : FailSet :=
  { foreign := fs.contains .foreign, lowIr := fs.contains .lowIr, open' := fs.contains .open,
    unbalanced := fs.contains .unbalanced }

/-- R165: the verdict, the first failure in program order, PASS with none. -/
def verdictOf (fs : List Failure) : Verdict :=
  match fs with
  | [] => .pass
  | f :: _ => f.verdict

/-- R145, R165: the one value of an ACCESS test, its connected duration. -/
def durationValue (n : Nat) : StepValue := { value := n, overRange := false, ac := false, limit := false }

/-- R165: the values list of a test. -/
def valuesList (e : EnginePart) (t : RunningTest) : List StepValue :=
  if t.entry.kind = .access then [durationValue t.connected] else t.values ++ derivedValues e t.entry.kind t.values

/-- R165: the failures of a test. An ACCESS test has none. -/
def testFailures (e : EnginePart) (t : RunningTest) : List Failure :=
  if t.entry.kind = .access then [] else failures e t.entry.kind t.values

/-! ### Source, activity and calibration -/

/-- R155: the TSQ asks for the source OFF. A step under way is over with it (R154). -/
def State.sourceOff (s : State) : State := s.setMfe s.mfe.stopStep

/-- R155, R160, R163: the start of a step at the MFE: the source is turned on or off for the step's kind and the
activity names the step; the answer is false when a request for ON is refused. -/
def State.startMeasuring (s : State) (k : StepKind) : State × Bool :=
  match k with
  | .voltage => (s.setMfe { s.mfe with source := .off, activity := .measuring, charge := .idle }, true)
  | .selfCheck =>
    if s.sourceAllowed then (s.setMfe { s.mfe with source := .voltage, activity := .selfCheck, charge := .idle }, true)
    else (s.sourceOff, false)
  | .resistance =>
    if s.sourceAllowed then (s.setMfe { s.mfe with source := .voltage, activity := .measuring, charge := .idle }, true)
    else (s.sourceOff, false)
  | .charge =>
    if s.sourceAllowed then
      (s.setMfe { s.mfe with source := .current, activity := .measuring, charge := .discharging }, true)
    else (s.sourceOff, false)

/-- R154: a step completes; the activity becomes IDLE. -/
def State.endMeasuring (s : State) : State := s.setMfe { s.mfe with activity := .idle, charge := .idle }

/-- R142, R154, R158: a calibration is begun from IDLE with the source OFF and a port connected. -/
def State.startCalibration (s : State) : State :=
  if s.mfe.activity = .idle ∧ s.mfe.source = .off ∧ s.mfe.connected ≠ none then
    s.setMfe { s.mfe with activity := .calibrating 1 0 }
  else s

/-- R158: an attempt is good. -/
def calibrationGood (m c : Int) : Bool := decide (m.natAbs ≤ 200 ∧ (m - c).natAbs ≤ 50)

/-- The outcome of a calibration attempt: none yet (a second attempt begins), good, or FAILED. -/
inductive CalibrationOutcome | again | good | failed
deriving DecidableEq, Repr

/-- R158, R159: the end of an attempt with these samples. -/
def Mfe.attemptEnd (f : Mfe) (attempt : Nat) (main check : Samples) (frame : Half) : Mfe × CalibrationOutcome :=
  let m := rawMean main
  let c := rawMean check
  if calibrationGood m c then
    ({ f with mainOffset := some m, checkOffset := some c, lastCalibration := some frame, age := 0, failures := 0,
              activity := .idle }, .good)
  else if 2 ≤ f.failures + 1 then
    ({ f with failures := 2, failed := true, source := .off, activity := .idle, charge := .idle }, .failed)
  else ({ f with failures := f.failures + 1, activity := .calibrating (attempt + 1) 0 }, .again)

/-- R160: a self-check that does not pass; the answer tells whether the MFE has become FAILED (R159). -/
def Mfe.selfCheckFailed (f : Mfe) : Mfe :=
  if 2 ≤ f.failures + 1 then
    { f with failures := 2, failed := true, source := .off, activity := .idle, charge := .idle }
  else { f with failures := f.failures + 1, source := .off, activity := .idle, charge := .idle }

/-- R154, R158: the MFE's counts at a frame advance. -/
def Mfe.counted (f : Mfe) : Mfe :=
  { f with
    age := min 1024 (f.age + 1)
    activity :=
      match f.activity with
      | .calibrating a n => .calibrating a (n + 1)
      | x => x }

end Sys2Proof.Machine
end

