-- ==== Sys2Proof/Machine/Tests.lean ====
section
/-!
DEFINITION. The Test Sequencer (Chapter 9): selection, the running test's phases and steps, preemption and resume,
interruptions, results. Each operation is one block's reaction inside one event; `State.settleEvent` closes the event
with the notices and the selection it has made due.
-/
namespace Sys2Proof.Machine

/-! ### Who holds what -/

/-- The state with the running slot replaced. -/
def State.setRunning (s : State) (t : Option RunningTest) : State := s.setTsq { s.tsq with running := t }

/-- R138: the TSQ selects at this event. -/
def State.dueSelect (s : State) : State := s.setTsq { s.tsq with selectDue := true }

/-- R138: port p belongs to the running test or to a test on the context stack. -/
def State.portTaken (s : State) (p : PortNo) : Bool :=
  (s.tsq.running.any fun t => decide (t.entry.port = p)) || s.tsq.stack.any fun c => decide (c.test.entry.port = p)

/-- R139, R146: the test holds all its claims: its binder and, for ACCESS, also ACCESS. -/
def State.claimsHeld (s : State) (t : RunningTest) : Bool :=
  decide ((s.claimOf (s.binderOf t.entry.port)).own = .held) &&
    (decide (t.entry.kind ≠ .access) || decide ((s.claimOf accessBus).own = .held))

/-- R138: the entry is skipped. -/
def State.skipped (s : State) (e : QueueEntry) : Bool :=
  decide (3 ≤ s.pmg.tier.val) || (decide ((s.port e.port).state = .isolated) && decide (e.kind ≠ .fv)) ||
    s.portTaken e.port

/-- R138: the queue head, the first entry in queue order that is not skipped. -/
def State.queueHead? (s : State) : Option QueueEntry := s.tsq.queue.find? fun e => !s.skipped e

/-- R138: what selection does: start an entry, or resume the context at the top of the stack. -/
inductive Selection
  | start (e : QueueEntry)
  | resume (c : Context)
deriving DecidableEq, Repr

/-- R138: the test that selection would start or resume, in RUN only. -/
def State.selection? (s : State) : Option Selection :=
  if s.inRun then
    match s.queueHead?, s.tsq.stack with
    | some e, [] => some (.start e)
    | some e, c :: _ => if c.test.entry.priority < e.priority then some (.start e) else some (.resume c)
    | none, c :: _ => some (.resume c)
    | none, [] => none
  else none

/-! ### Results -/

/-- R152, R165: the result record of a test at its end. -/
def State.resultOf (s : State) (t : RunningTest) (cause : Option AbortCause) : ResultRecord :=
  let fs := testFailures s.engine t
  { requester := t.entry.requester, tag := t.entry.tag, port := t.entry.port, kind := t.entry.kind, type := .result,
    verdict := verdictOf fs, fail := failSet fs, values := valuesList s.engine t, cause := cause, start := t.start,
    finish := s.uls.f }

/-- R152: a test removed from the queue never started; both its frames are F, and it has no values, an ACCESS entry included
(log entry 45). -/
def State.removedRecord (s : State) (e : QueueEntry) (cause : AbortCause) : ResultRecord :=
  { requester := e.requester, tag := e.tag, port := e.port, kind := e.kind, type := .result, verdict := .pass,
    fail := FailSet.empty, values := [], cause := some cause, start := s.uls.f, finish := s.uls.f }

/-- R152: a record whose requester is not 0 is offered to that requester as a TEST REPORT. -/
def State.offerReport (s : State) (r : ResultRecord) : State :=
  if r.requester = 0 then s else s.offer (.testReport (natByte r.requester) r)

/-- R153: the result log, a ring of 16 entries. -/
def logCapacity : Nat := 16

/-- R152, R153: a record is offered and enters the result log under the next sequence number. -/
def State.logResult (s : State) (r : ResultRecord) : State :=
  let s := s.offerReport r
  let l := if s.tsq.log.length < logCapacity then s.tsq.log else s.tsq.log.tail
  s.setTsq { s.tsq with log := l ++ [(s.tsq.nextSeq, r)], nextSeq := s.tsq.nextSeq + 1 }

/-! ### The end of a test -/

/-- R144, R146: the release after a test on binder b when `next` will run: its claims pass over when the next test
needs the same binder. -/
def State.passBinder (s : State) (b : ResourceNo) (next : Option ResourceNo) : State :=
  if next = some b then s.releaseAllBut b else s.releaseAll

/-- The binder of the test that selection would start or resume. -/
def State.nextBinder? (s : State) : Option ResourceNo :=
  match s.selection? with
  | some (.start e) => some (s.binderOf e.port)
  | some (.resume c) => some (s.binderOf c.test.entry.port)
  | none => none

/-- R144, R152: the running test t ends. RETURN: the source goes off, the port is disconnected and, when it is still
the test's own, returned. DONE: the result record, the end notice, the empty slot, the release or the chaining of the
binder, and the selection that follows. With `chain` false every claim is released (R150). -/
def State.finishTest (s : State) (t : RunningTest) (cause : Option AbortCause) (owned chain : Bool) : State :=
  let p := t.entry.port
  let s := s.sourceOff
  let s := if owned then (s.disconnect p).returnPort p else s
  let s := s.logResult (s.resultOf t cause)
  let s := ((s.setRunning none).noticeEnd p t.entry.kind t.entry.origin).settleNotices
  let s := if chain then s.passBinder (s.binderOf p) s.nextBinder? else s.releaseAll
  s.dueSelect

/-- The context stack without the context on port p. -/
def State.dropContext (s : State) (p : PortNo) : State :=
  s.setTsq { s.tsq with stack := s.tsq.stack.filter fun c => decide (c.test.entry.port ≠ p) }

/-- R152: a suspended test ends. It holds no claim; its port is returned when it is still its own. Until its record is
made it is suspended, so that no level cell asks for its port and kind before the end notice (R130). -/
def State.finishSuspended (s : State) (c : Context) (cause : AbortCause) (owned : Bool) : State :=
  let t := c.test
  let p := t.entry.port
  let s := if owned then (s.disconnect p).returnPort p else s
  ((s.logResult (s.resultOf t (some cause))).dropContext p).noticeEnd p t.entry.kind t.entry.origin

/-- R150: the running test and every suspended test are aborted: the running one first, then the stack from its top
(log entry 39). -/
def State.abortTests (s : State) (cause : AbortCause) : State :=
  let s := match s.tsq.running with
    | some t => s.finishTest t (some cause) true false
    | none => s
  (s.tsq.stack.foldl (fun s c => s.finishSuspended c cause true) s).dueSelect

/-- R150, R152: one queue entry is removed with this cause. -/
def State.removeEntry (s : State) (e : QueueEntry) (cause : AbortCause) : State :=
  let s := s.setTsq { s.tsq with queue := dropMade s.tsq.queue e.made }
  ((s.logResult (s.removedRecord e cause)).noticeRemoved e.port e.kind).noticeLeave

/-- R150, R159: the MFE has become FAILED: every test is aborted and every queue entry removed with FRONT END, the
entries in queue order (log entry 39). -/
def State.frontEndFailed (s : State) : State :=
  let s := s.abortTests .frontEnd
  s.tsq.queue.foldl (fun s e => s.removeEntry e .frontEnd) s

/-! ### Steps -/

/-- R143, R148: the test begins the step at its index. A source step is not begun while the isolation of the port is
in force. -/
def State.enterStep (s : State) (t : RunningTest) : State :=
  match t.entry.kind.stepAt t.step with
  | none => s.finishTest t none true true
  | some (k, _) =>
    if k.needsSource && s.isolationInForce t.entry.port then s.finishTest t (some .isolated) true true
    else
      let (s, begun) := s.startMeasuring k
      s.setRunning (some { t with phase := .step, stage := if begun then .settling k.settle else .notBegun })

/-- R145: the CONNECTED report of an ACCESS test. -/
def State.connectedReport (s : State) (t : RunningTest) : ResultRecord :=
  { requester := t.entry.requester, tag := t.entry.tag, port := t.entry.port, kind := t.entry.kind, type := .connected,
    verdict := .pass, fail := FailSet.empty, values := [], cause := none, start := t.start, finish := s.uls.f }

/-- R142, R145: with all its claims HELD and its take GIVEN, the test connects and enters CONNECTED, STEP or
CALIBRATE. -/
def State.goOn (s : State) (t : RunningTest) : State :=
  let p := t.entry.port
  if t.entry.kind = .access then
    if s.accessBusFree p then
      let s := s.connectAccess p
      let s := if t.reported then s else s.offerReport (s.connectedReport t)
      s.setRunning (some { t with phase := .connected, reported := true })
    else s.finishTest t (some .port) true true
  else if s.frontEndFree p then
    let s := s.connectFrontEnd p
    if s.mfe.age < 1024 then s.enterStep t
    else s.startCalibration.setRunning (some { t with phase := .calibrate, stage := .notBegun })
  else s.finishTest t (some .port) true true

/-- R140, R142: the test has all its claims and leaves CLAIM; the binder claim is marked in use. -/
def State.leaveClaim (s : State) (t : RunningTest) : State :=
  let s := s.markInUse (s.binderOf t.entry.port)
  if t.take = .given then s.goOn t else s.setRunning (some { t with phase := .drain, stage := .notBegun })

/-- R140: the held notice for resource r. -/
def State.heldNotice (s : State) (r : ResourceNo) : State :=
  match s.tsq.running with
  | none => s
  | some t =>
    let b := s.binderOf t.entry.port
    if t.phase = .claim ∧ (r = b ∨ r = accessBus) then
      if s.claimsHeld t then s.leaveClaim t
      else if t.entry.kind = .access ∧ r = b then s.markWaiting b
      else s
    else s

/-- R140: the test requests its claims: its binder and, for ACCESS, also ACCESS. A binder that is HELD already gives
its held notice at once. -/
def State.requestClaims (s : State) (t : RunningTest) : State :=
  let b := s.binderOf t.entry.port
  let s := s.setRunning (some { t with phase := .claim, stage := .notBegun })
  let held := decide ((s.claimOf b).own = .held)
  let s := s.claimBinder b
  let s := if t.entry.kind = .access then s.claimAccess else s
  if held then s.heldNotice b else s

/-- R114, R139, R146: the take of the test on port p has been answered GIVEN. -/
def State.givenNotice (s : State) (p : PortNo) : State :=
  match s.tsq.running with
  | some t =>
    if t.entry.port = p then
      let given := { t with take := .given }
      if t.take = .waiting then s.requestClaims given
      else if t.phase = .drain then s.goOn given
      else s.setRunning (some given)
    else s.setTsq { s.tsq with stack := s.tsq.stack.map fun c =>
      if c.test.entry.port = p then { c with test := { c.test with take := .given } } else c }
  | none => s.setTsq { s.tsq with stack := s.tsq.stack.map fun c =>
      if c.test.entry.port = p then { c with test := { c.test with take := .given } } else c }

/-! ### Start, resume, suspension -/

/-- R138, R139: the entry starts as the running test, takes its port and requests its claims. -/
def State.startTest (s : State) (e : QueueEntry) : State :=
  let t : RunningTest :=
    { entry := e, phase := .claim, step := 1, values := [], take := .sent, conflicts := 0, claimWait := 0,
      remainingHold := if e.kind = .access then e.holdTime * 1024 else 0, connected := 0, start := s.uls.f,
      stage := .notBegun, reported := false }
  let s := s.setTsq { s.tsq with queue := dropMade s.tsq.queue e.made, running := some t }
  let s := ((s.noticeStart e.port e.kind).noticeLeave).settleNotices
  let (s, out) := s.take e.port e.kind
  match out with
  | .given => s.requestClaims { t with take := .given }
  | .draining => s.requestClaims t
  | .waits => s.setRunning (some { t with take := .waiting, phase := .waitPort })
  | .refused => s.finishTest t (some .port) false true

/-- R148: the next step of the test needs the source. -/
def RunningTest.sourceNext (t : RunningTest) : Bool :=
  match t.entry.kind.stepAt t.step with
  | some (k, _) => k.needsSource
  | none => false

/-- R147, R148: the context at the top of the stack resumes with the fields it saved. -/
def State.resumeTest (s : State) (c : Context) : State :=
  let t := if c.claims then { c.test with claimWait := 0 } else c.test
  let s := s.setTsq { s.tsq with stack := s.tsq.stack.tail, running := some t }
  if t.entry.kind ≠ .access ∧ s.isolationInForce t.entry.port = true ∧ t.sourceNext = true then
    s.finishTest t (some .isolated) true true
  else s.requestClaims t

/-- R146: the running test t is suspended for the head e, which starts. -/
def State.suspendFor (s : State) (t : RunningTest) (e : QueueEntry) : State :=
  let b := s.binderOf t.entry.port
  let c : Context := { test := { t with stage := .notBegun }, claims := s.claimsHeld t }
  let s := s.sourceOff.disconnect t.entry.port
  let s := s.setTsq { s.tsq with running := none, stack := c :: s.tsq.stack }
  let next := if (s.claimOf b).own = .held then some (s.binderOf e.port) else none
  (s.passBinder b next).startTest e

/-- R146: the limit of the context stack. -/
def stackCapacity : Nat := 3

/-- R146: the head that preempts the running test t, if there is one and the stack has room. -/
def State.preemptor? (s : State) (t : RunningTest) : Option QueueEntry :=
  if s.tsq.stack.length < stackCapacity then s.queueHead?.filter fun e => decide (t.entry.priority < e.priority)
  else none

/-- R146: the preemption check of a frame advance, in CLAIM or CONNECTED. -/
def State.preemptCheck (s : State) : State :=
  match s.tsq.running with
  | none => s
  | some t =>
    if t.phase = .claim ∨ t.phase = .connected then
      match s.preemptor? t with
      | some e => s.suspendFor t e
      | none => s
    else s

/-! ### Step and calibration ends -/

/-- R143: an IR or FULL test whose three voltage values are in goes no further when one exceeds the FV limit. -/
def foreignStop (e : EnginePart) (t : RunningTest) : Bool :=
  (decide (t.entry.kind = .ir) || decide (t.entry.kind = .full)) && decide (t.step = 4) &&
    t.values.any fun v => decide (e.fvLimit < v.value.natAbs)

/-- R143, R146: after a step has completed and its value been added: evaluation, suspension, or the next step. -/
def State.afterStep (s : State) (t : RunningTest) : State :=
  if foreignStop s.engine t || (t.entry.kind.stepAt t.step).isNone then s.finishTest t none true true
  else
    match s.preemptor? t with
    | some e => s.suspendFor t e
    | none => s.enterStep t

/-- R160: a self-check that fails aborts the test with FRONT END, and all of testing when the MFE becomes FAILED. -/
def State.failSelfCheck (s : State) (t : RunningTest) : State :=
  let s := s.setMfe s.mfe.selfCheckFailed
  if s.mfe.failed then s.frontEndFailed else s.finishTest t (some .frontEnd) true true

/-- R143, R154: the integration frame of the running step ends with these samples. -/
def State.completeStep (s : State) (main check : Samples) : State :=
  match s.tsq.running with
  | none => s
  | some t =>
    if t.phase = .step ∧ (t.stage = .integrating ∨ t.stage = .ended) ∧
        (s.mfe.activity = .measuring ∨ s.mfe.activity = .selfCheck) then
      match t.entry.kind.stepAt t.step with
      | none => s
      | some (k, _) =>
        if k = .selfCheck ∧ selfCheckPasses s.mfe check = false then s.failSelfCheck t
        else
          let v := stepValue s.mfe main k
          s.endMeasuring.afterStep
            { t with step := t.step + 1, values := t.values ++ v.toList, stage := .notBegun }
    else s

/-- R143: the settle of the running step runs out, and its integration frame begins. -/
def State.endStepSettle (s : State) : State :=
  match s.tsq.running with
  | none => s
  | some t =>
    match t.phase, t.stage with
    | .step, .settling _ => s.setRunning (some { t with stage := .integrating })
    | _, _ => s

/-- R142, R158, R159: a calibration attempt ends with these samples. -/
def State.endCalibration (s : State) (main check : Samples) : State :=
  match s.mfe.activity with
  | .calibrating attempt _ =>
    let (m, out) := s.mfe.attemptEnd attempt main check s.uls.f
    let s := s.setMfe m
    match out with
    | .again => s
    | .failed => s.frontEndFailed
    | .good =>
      match s.tsq.running with
      | some t => if t.phase = .calibrate then s.enterStep t else s
      | none => s
  | _ => s

/-- R145: the remaining hold of a connected ACCESS test reaches 0: EVALUATE with PASS and the connected duration. -/
def State.endAccessHold (s : State) : State :=
  match s.tsq.running with
  | none => s
  | some t => if t.phase = .connected then s.finishTest { t with remainingHold := 0 } none true true else s

/-- R140: the claim wait of a test in CLAIM reaches 256: BUSY. -/
def State.endClaimWait (s : State) : State :=
  match s.tsq.running with
  | none => s
  | some t => if t.phase = .claim then s.finishTest { t with claimWait := 256 } (some .busy) true true else s

/-! ### Selection and the close of an event -/

/-- R138: the TSQ selects while a selection is due and the slot is empty. A test that ends at its very start or resume
makes a further selection due; `n` bounds the rounds (log entry 10), and the TSQ selects again at the next frame
advance in any case. -/
def runSelect : Nat → State → State
  | 0, s => s.setTsq { s.tsq with selectDue := false }
  | n + 1, s =>
    if s.tsq.selectDue then
      let s := s.setTsq { s.tsq with selectDue := false }
      if s.tsq.running.isSome then s
      else
        match s.selection? with
        | none => s
        | some (.start e) => runSelect n (s.startTest e).settleNotices
        | some (.resume c) => runSelect n (s.resumeTest c).settleNotices
    else s

/-- An event closes: the leave notices it has given are worked off (R129), and the TSQ selects if it has made a
selection due (R138). Where one command is several events, each that may end a test closes before the next begins, so
that the test that follows is the one the end has found (R144). -/
def State.settleEvent (s : State) : State := runSelect 64 s.settleNotices

/-! ### Interruptions -/

/-- R141: the lost notice for resource r: the first conflict returns the running test to CLAIM, the second aborts it.
A test in WAIT PORT, whose binder chaining has kept HELD, has requested no claim yet: it takes no notice (log entry
38). -/
def State.lostNotice (s : State) (r : ResourceNo) : State :=
  match s.tsq.running with
  | none => s
  | some t =>
    let b := s.binderOf t.entry.port
    if t.phase = .waitPort ∨ ¬(r = b ∨ r = accessBus) then s
    else if t.conflicts = 0 then
      let s := s.sourceOff.disconnect t.entry.port
      let s := s.setRunning (some { t with conflicts := 1, phase := .claim, stage := .notBegun })
      if r = accessBus then
        let s := s.claimAccess
        if (s.claimOf b).own = .held then s.markWaiting b else s
      else s.claimBinder b
    else s.finishTest t (some .claimLost) true true

/-- R149: what a WITHDRAWN notice does to a test on port p. -/
inductive WithdrawnCase
  | abort (cause : AbortCause)
  | retake
deriving DecidableEq, Repr

/-- R149: the first case that holds. -/
def State.withdrawnCase (s : State) (p : PortNo) (k : TestKind) : WithdrawnCase :=
  if 3 ≤ s.pmg.tier.val then .abort .power
  else if (s.port p).state = .isolated then (if k = .fv then .retake else .abort .isolated)
  else .abort .port

/-- R149: the WITHDRAWN notice for the take of the test on port p. A withdrawn take is not returned. -/
def State.withdrawnNotice (s : State) (p : PortNo) : State :=
  match s.tsq.running.filter fun t => decide (t.entry.port = p) with
  | some t =>
    match s.withdrawnCase p t.entry.kind with
    | .abort cause => s.finishTest t (some cause) false true
    | .retake => ((s.take p .fv).1).givenNotice p
  | none =>
    match s.tsq.stack.find? fun c => decide (c.test.entry.port = p) with
    | some c =>
      match s.withdrawnCase p c.test.entry.kind with
      | .abort cause => s.finishSuspended c cause false
      | .retake => ((s.take p .fv).1).givenNotice p
    | none => s

/-- R148: the isolation of port p has come into force while the port belongs to a test. -/
def State.inForceNotice (s : State) (p : PortNo) : State :=
  match s.tsq.running.filter fun t => decide (t.entry.port = p) with
  | some t =>
    if t.entry.kind = .access ∨ t.sourceNext = true then s.finishTest t (some .isolated) true true else s
  | none =>
    match s.tsq.stack.find? fun c => decide (c.test.entry.port = p) with
    | some c =>
      if c.test.entry.kind = .access then s.finishSuspended c .isolated true else s
    | none => s

/-! ### The PTC's requests with the TSQ's reactions -/

/-- R119, R148, R149, R155: an isolate of port p. -/
def State.doIsolate (s : State) (p : PortNo) : State :=
  let (s, out) := s.isolate p
  let s := s.enforceSource
  match out with
  | .none => s
  | .withdrawn => s.withdrawnNotice p
  | .inForce => s.inForceNotice p

/-- R117, R149: a shed at once of port p. -/
def State.doShedAtOnce (s : State) (p : PortNo) : State :=
  let (s, withdrawn) := s.shedAtOnce p
  if withdrawn then s.withdrawnNotice p else s

/-- The kind of the running test, for a waiting take (R113). -/
def State.runningKind (s : State) : TestKind :=
  match s.tsq.running with
  | some t => t.entry.kind
  | none => .fv

/-- R139: a restore has moved the waiting take of the running test to a drain for TEST: the take is SENT, and the test
requests its claims. -/
def State.movedNotice (s : State) (p : PortNo) : State :=
  match s.tsq.running with
  | some t =>
    if t.entry.port = p ∧ t.take = .waiting then s.requestClaims { t with take := .sent } else s
  | none => s

/-- R118, R139: a restore of port p. -/
def State.doRestore (s : State) (p : PortNo) : State :=
  match s.restore p s.runningKind with
  | (s, none) => s
  | (s, some ended) =>
    let s := s.movedNotice p
    if ended then s.givenNotice p else s

/-- R114: the drain of port p ends. -/
def State.doDrainEnd (s : State) (p : PortNo) : State :=
  match (s.port p).state with
  | .draining .test => (s.enter p .inTest).givenNotice p
  | .draining .shed =>
    let waiting := (s.port p).takeWaiting
    let s := s.enter p .off
    if waiting then (s.enter p .inTest).givenNotice p else s
  | _ => s

/-- R101: a port in DRAINING whose held count is 0 has its drain ended. A test that ends with it is followed at once
(R144). -/
def State.endEmptyDrain (s : State) (p : PortNo) : State :=
  if (s.port p).state.isDraining = true ∧ s.held p = 0 then (s.doDrainEnd p).settleEvent else s

/-- R101: every drain that has emptied ends. -/
def State.endEmptyDrains (s : State) : State := allPorts.foldl State.endEmptyDrain s

/-! ### The PVU's events with the TSQ's reactions -/

/-- R35, R140: the settle of the claim for r ends. -/
def State.doSettleEnd (s : State) (r : ResourceNo) : State :=
  if (s.claimOf r).own = .settling then (s.enterHeld r).heldNotice r else s

/-- R30, R35, R36: a CLAIM from peer x with stamp t. -/
def State.hearClaim (s : State) (r : ResourceNo) (x : Nat) (t : Half) : State :=
  match (s.claimOf r).own with
  | .none => s.observe r x t
  | .waiting => s.observe r x t
  | .settling => s.contest r x t
  | .held => s.offerHold r

/-- R30, R35, R37, R141: a HOLD from peer x with stamp t. -/
def State.hearHold (s : State) (r : ResourceNo) (x : Nat) (t : Half) : State :=
  match (s.claimOf r).own with
  | .none => s.observe r x t
  | .waiting => s.observe r x t
  | .settling => s.contest r x t
  | .held =>
    if beats (s.claimOf r).ownStamp s.csu.address t x then s.offerHold r
    else (s.loseClaim r x t).lostNotice r

/-- R38: the unused claim for binder r lapses. The test that waits in CLAIM stays there. -/
def State.doLapse (s : State) (r : ResourceNo) : State :=
  if (s.claimOf r).own = .held ∧ (s.claimOf r).markedWaiting = true then s.lapseClaim r else s

/-! ### Counts -/

/-- R140, R143, R145: the counts of the running test at a frame advance. -/
def RunningTest.counted (t : RunningTest) : RunningTest :=
  match t.phase with
  | .claim => { t with claimWait := min 256 (t.claimWait + 1) }
  | .connected => { t with remainingHold := t.remainingHold - 1, connected := t.connected + 1 }
  | .step =>
    { t with
      stage :=
        match t.stage with
        | .settling n => .settling (n - 1)
        | .integrating => .ended
        | x => x }
  | _ => t

end Sys2Proof.Machine
end

