-- ==== Sys2Proof/Machine/Power.lean ====
section
/-!
DEFINITION. The Power Manager (Chapter 11): samples and mean (R167), tiers (R168 to R170), the load figures and LOAD
reports (R171, R172), and the power evaluation (R173 to R176).
-/
namespace Sys2Proof.Machine

/-- The state with the PMG replaced. -/
def State.setPmg (s : State) (g : Pmg) : State := { s with pmg := g }

/-! ### Samples and the mean -/

/-- R167: the limit of the sample window. -/
def sampleCapacity : Nat := 64

/-- R167: a sample joins the window and pushes out the oldest of a full one. -/
def pushSample (l : List Half) (v : Half) : List Half := (l ++ [v]).drop ((l ++ [v]).length - sampleCapacity)

/-- R167: the mean of the window, the remainder discarded; none where no sample has been taken. -/
def meanOf (l : List Half) : Option Nat := if l.isEmpty then none else some ((l.map BitVec.toNat).sum / l.length)

/-- R167: the sample of a frame advance. -/
def State.sample (s : State) (v : Half) : State := s.setPmg { s.pmg with samples := pushSample s.pmg.samples v }

/-! ### Figures -/

/-- R171: a figure stops at 65535. -/
def stop16 (n : Nat) : Nat := min 65535 n

/-- R171: the sum of p_serv over the fitted ports of a class: those that the engine part names as fitted and whose part is
held, whatever their state, UNFITTED in UNCONFIGURED among them (12.2, R179). -/
def State.servOf (s : State) (c : PortClass) : Nat :=
  ((s.configuredPorts.filter fun p => decide ((s.part p).cls = c)).map fun p => (s.part p).pServ).sum

/-- R171: p_test while the running slot holds a test, and p_src while the source is ON. -/
def State.testLoad (s : State) : Nat :=
  (if s.tsq.running.isSome then s.engine.pTest else 0) + (if s.mfe.source ≠ .off then s.engine.pSrc else 0)

/-- R171: E-want. -/
def State.eWant (s : State) : Nat := stop16 (s.engine.pBase + s.testLoad + s.servOf .essential)

/-- R171: S-want. -/
def State.sWant (s : State) : Nat := stop16 (s.servOf .standard)

/-- R171: F-want. -/
def State.fWant (s : State) : Nat := stop16 (s.servOf .deferrable)

/-- R109, R171: the present load of one port. -/
def State.portLoad (s : State) (p : PortNo) : Nat :=
  match (s.port p).state with
  | .inService => (s.part p).pServ
  | .draining _ => (s.part p).pServ
  | .isolated => (s.part p).pIso
  | _ => 0

/-- R171: the present load. -/
def State.presentLoad (s : State) : Nat :=
  stop16 (s.engine.pBase + s.testLoad + (allPorts.map s.portLoad).sum)

/-- R172: a LOAD report with the figures of this moment. -/
def State.loadReport (s : State) : Message :=
  .load (natHalf (powerEpochOf s.uls.f)) (natHalf s.eWant) (natHalf s.sWant) (natHalf s.fWant) (natHalf s.presentLoad)
    (natByte s.pmg.tier.val)

/-- R172: a LOAD is offered, in RUN only. -/
def State.offerLoad (s : State) : State := if s.inRun then s.offer s.loadReport else s

/-! ### Tiers -/

/-- R168: the plain tier of a mean. -/
def plainTier (e : EnginePart) (v : Nat) : Fin 5 :=
  if e.va ≤ v then 1 else if e.vb ≤ v then 2 else if e.vc ≤ v then 3 else 4

/-- R168: the best tier whose floor plus 20 the mean reaches, if there is one. -/
def marginTier (e : EnginePart) (v : Nat) : Option (Fin 5) :=
  if e.va + 20 ≤ v then some 1 else if e.vb + 20 ≤ v then some 2 else if e.vc + 20 ≤ v then some 3 else none

/-- R168: the tier judged from a mean. -/
def judgedTier (e : EnginePart) (present : Fin 5) (v : Nat) : Fin 5 :=
  let plain := plainTier e v
  if present.val < plain.val then plain
  else if plain.val < present.val then
    match marginTier e v with
    | some t => if t.val < present.val then t else present
    | none => present
  else present

/-- R170: what an entry to tier 4 does: every restore counter becomes 0 and every fitted port is shed at once,
in ascending port number (log entry 35). -/
def State.enterTier4 (s : State) : State :=
  allPorts.foldl State.doShedAtOnce (s.setPmg { s.pmg with restore := Vector.replicate 12 0 })

/-- R170: the tier becomes t, and a change is handed on: the MFE's source, the outstanding power
reference, the aborts of tier 3 and 4, and after them the sheds of tier 4 (R117, R150; log entry 35). -/
def State.setTier (s : State) (t : Fin 5) : State :=
  let old := s.pmg.tier
  if t = old then s
  else
    let s := (s.setPmg { s.pmg with tier := t }).enforceSource
    let s := if 3 ≤ t.val then s.setPmg { s.pmg with powerRef := none } else s
    let s := if 3 ≤ t.val ∧ old.val < 3 then s.abortTests .power else s
    if t = 4 then s.enterTier4 else s

/-- A tier from 1 to 4 that nothing constrains, judged while no thresholds are configured (R177; log entry 4). -/
def State.drawnTier (s : State) : Fin 5 := (Config.freeTier s.freeDraws).succ

/-- The state with one free value more drawn. -/
def State.drawn (s : State) (n : Nat) : State := { s with freeDraws := s.freeDraws + n }

/-- R168: the tier is judged from the mean v. Without an engine part there are no thresholds to judge it by, and the
tier that results is free (log entry 4). -/
def State.judge (s : State) (v : Nat) : State :=
  match s.csu.engine with
  | some e => s.setTier (judgedTier e s.pmg.tier v)
  | none => (s.drawn 1).setTier s.drawnTier

/-- R169: the tier at a MAINS falling edge, from the last mean, or 1 where there is none. -/
def State.fallTier (s : State) : State :=
  match s.pmg.lastMean, s.csu.engine with
  | some v, some e => s.setTier (plainTier e v)
  | some _, none => (s.drawn 1).setTier s.drawnTier
  | none, _ => s.setTier 1

/-! ### Power epochs -/

/-- R167: F div 64 has changed since the last power epoch start. -/
def State.powerEpochDue (s : State) : Bool := decide (s.pmg.powerEpoch ≠ powerEpochOf s.uls.f)

/-- R168: the tier is judged from the new mean in ABSENT and RETURNED. -/
def State.judgeNew (s : State) : State :=
  if s.pmg.mains = .present then s
  else
    match meanOf s.pmg.samples with
    | some v => s.judge v
    | none => s

/-- R167, R168, R172: a power epoch start. -/
def State.startPowerEpoch (s : State) : State :=
  let s := s.setPmg { s.pmg with powerEpoch := powerEpochOf s.uls.f
                                 lastMean := (meanOf s.pmg.samples).or s.pmg.lastMean }
  s.judgeNew.offerLoad

/-! ### The evaluation -/

/-- R176: the decision for a port is acted on. A test that ends with a restore is followed at once (R144). So is an entry
that a LINK level cell queues at a restore: the TSQ selects after each restore, before the decision for the next port is
acted on (DESIGN CHOICE, log entry 52, unsafe). -/
def State.actOn (s : State) (d : PortNo × Bool) : State :=
  if d.2 then
    let n := min 2 (s.restoreOf d.1 + 1)
    let s := s.setRestore d.1 n
    if n = 2 then (s.doRestore d.1).settleEvent else s
  else
    let s := s.setRestore d.1 0
    if s.pmg.tier = 4 then s.doShedAtOnce d.1 else s.shed d.1

/-- R176: one evaluation's decisions are acted on, in the ascending port number of the list (log entry 44). -/
def State.actOnAll (s : State) (ds : List (PortNo × Bool)) : State := ds.foldl State.actOn s

/-- The fitted ports, ascending. -/
def State.fittedPorts (s : State) : List PortNo := allPorts.filter s.fitted

/-- The fitted ports of a class, ascending. -/
def State.portsOf (s : State) (c : PortClass) : List PortNo :=
  s.fittedPorts.filter fun p => decide ((s.part p).cls = c)

/-- R174: what an evaluation decides at tier 1 or 2: STANDARD admitted, DEFERRABLE admitted, and the shared class with
its capacity. A class that is shared is decided at the completion. -/
structure ClassPlan where
  standard : Bool
  deferrable : Bool
  shared : Option (PortClass × Nat)
deriving DecidableEq, Repr

/-- R174: the plan for a budget and three totals. -/
def classPlan (budget eTot sTot fTot : Nat) : ClassPlan :=
  let b1 := budget - eTot
  if sTot ≤ b1 then
    let b2 := b1 - sTot
    if fTot ≤ b2 then ⟨true, true, none⟩ else ⟨true, false, some (.deferrable, b2)⟩
  else ⟨false, false, some (.standard, b1)⟩

/-- R174: the plan's decision for a class, none where it waits for the completion. -/
def ClassPlan.decision (plan : ClassPlan) (c : PortClass) : Option Bool :=
  if plan.shared.any fun x => decide (x.1 = c) then none
  else
    match c with
    | .essential => some true
    | .standard => some plan.standard
    | .deferrable => some plan.deferrable

/-- R26, R173: the load parts that are valid, with their addresses. -/
def State.validLoads (s : State) : List (Nat × LoadPart) :=
  s.pvu.peers.filterMap fun e =>
    match e.load with
    | some l => if l.valid then some (e.address, l) else none
    | none => none

/-- The want of a load part for a class. -/
def LoadPart.want (l : LoadPart) : PortClass → Nat
  | .essential => l.eWant.toNat
  | .standard => l.sWant.toNat
  | .deferrable => l.fWant.toNat

/-- R171: the engine's own want for a class. -/
def State.want (s : State) : PortClass → Nat
  | .essential => s.eWant
  | .standard => s.sWant
  | .deferrable => s.fWant

/-- R174: the total of the wants for a class, the engine's own and those of the valid load parts, in full width. -/
def State.totalWant (s : State) (c : PortClass) : Nat :=
  s.want c + (s.validLoads.map fun x => x.2.want c).sum

/-- R174: the budget of tier 1 or 2. -/
def State.budget (s : State) : Nat := if s.pmg.tier = 1 then s.engine.b1 else s.engine.b2

/-- R174: the plan of this moment. -/
def State.plan (s : State) : ClassPlan :=
  classPlan s.budget (s.totalWant .essential) (s.totalWant .standard) (s.totalWant .deferrable)

/-- A requester put in its place in ascending identity. -/
def insertRequester (r : Requester) : List Requester → List Requester
  | [] => [r]
  | x :: xs => if r.id ≤ x.id then r :: x :: xs else x :: insertRequester r xs

/-- R72, R174: requesters in ascending station address. -/
def byAddress (rs : List Requester) : List Requester := rs.foldr insertRequester []

/-- R174: the power share requested for a class. -/
def State.powerRequest (s : State) (c : PortClass) (capacity : Nat) : AuRequest :=
  let rs := byAddress (⟨s.csu.address, stop16 (s.want c), 1⟩ ::
    s.validLoads.map fun x => ⟨x.1, stop16 (x.2.want c), 1⟩)
  { kind := .powerShare, reference := s.pmg.evaluation, requesters := rs, capacity := stop16 capacity,
    order := rs.map Requester.id }

/-- R174: the shared class is requested from the AU when the engine wants any of it. -/
def State.requestShared (s : State) (plan : ClassPlan) : State :=
  match plan.shared with
  | some (c, capacity) =>
    if s.want c = 0 then s
    else
      (s.setPmg { s.pmg with powerRef := some (s.pmg.evaluation, c) }).requestAu (s.powerRequest c capacity)
  | none => s

/-- R173: the decisions made at the start of an evaluation, by the tier. -/
def State.startDecisions (s : State) (plan : ClassPlan) : List (PortNo × Bool) :=
  s.fittedPorts.filterMap fun p =>
    match s.pmg.tier.val with
    | 0 => some (p, true)
    | 1 => (plan.decision (s.part p).cls).map fun a => (p, a)
    | 2 => (plan.decision (s.part p).cls).map fun a => (p, a)
    | 3 => some (p, decide ((s.part p).cls = .essential))
    | _ => some (p, false)

/-- R173, item 1: RETURNED becomes PRESENT and the tier 0. -/
def State.mainsBack (s : State) : State :=
  if s.pmg.mains = .returned then (s.setPmg { s.pmg with mains := .present }).setTier 0 else s

/-- R173, R174: a power evaluation. The request for a shared class is made before the other decisions are acted on. -/
def State.evaluate (s : State) : State :=
  let s := s.mainsBack
  let s := s.setPmg { s.pmg with evaluation := s.pmg.evaluation + 1, lastEvaluation := some (powerEpochOf s.uls.f) }
  let plan := s.plan
  let ds := s.startDecisions plan
  let s := if s.pmg.tier.val = 1 ∨ s.pmg.tier.val = 2 then s.requestShared plan else s
  s.actOnAll ds

/-- R173: an evaluation is due. -/
def State.evaluationDue (s : State) : Bool :=
  s.inRun && decide (16 ≤ s.uls.f.toNat % 64) && decide (s.pmg.lastEvaluation ≠ some (powerEpochOf s.uls.f))

/-- R175: the walk of the shared class: a port is admitted while the running total stays within the allocation, and
none is after the first that is not. -/
def choosePorts (allocation : Nat) : Nat → List (PortNo × Nat) → List (PortNo × Bool)
  | _, [] => []
  | total, (p, serv) :: rest =>
    if total + serv ≤ allocation then (p, true) :: choosePorts allocation (total + serv) rest
    else (p, false) :: rest.map fun x => (x.1, false)

/-- R175, R176: the ports of the shared class are chosen within the engine's allocation and acted on. -/
def State.chooseShared (s : State) (c : PortClass) (allocation : Nat) : State :=
  s.actOnAll (choosePorts allocation 0 ((s.portsOf c).map fun p => (p, (s.part p).pServ)))

/-- R174: a power-share completion is taken, or disregarded where its reference is not the outstanding one. -/
def State.takePowerShare (s : State) (q : AuRequest) : State :=
  match s.pmg.powerRef with
  | some (reference, c) =>
    if q.reference = reference then
      (s.setPmg { s.pmg with powerRef := none }).chooseShared c (q.allocationTo s.csu.address)
    else s
  | none => s

/-! ### MAINS -/

/-- R166, R169: a falling edge of MAINS, without what follows it in RUN. -/
def State.fall (s : State) : State := (s.setPmg { s.pmg with mains := .absent, pin := false }).fallTier

/-- R169: what follows a falling edge in RUN, a LOAD and an evaluation. -/
def State.afterFall (s : State) : State := if s.inRun then s.offerLoad.evaluate else s

/-- R166: a rising edge of MAINS. -/
def State.rise (s : State) : State :=
  s.setPmg { s.pmg with pin := true, mains := if s.pmg.mains = .absent then .returned else s.pmg.mains }

end Sys2Proof.Machine
end

