-- ==== Sys2Proof/Machine/Uplink.lean ====
section
/-!
DEFINITION. The Uplink Scheduler (Chapters 4 and 5): markers and the timer, sync transitions, the share epoch, the grant
map, and the frame advance that every block counts at.
-/
namespace Sys2Proof.Machine

/-! ### Sync transitions -/

/-- R81, R84: the grant map and the outstanding division reference are cleared. -/
def Uls.clearMap (u : Uls) : Uls := { u with grantMap := [], division := none }

/-- R68, R94: what an entry to RESYNC does. -/
def Uls.enterResync (u : Uls) : Uls :=
  { u.clearMap with sync := .resync, current := none, pendingWindow := none, shareRef := none }

/-- R67, R94: an entry to LOST. -/
def State.enterLost (s : State) : State :=
  let s := s.releaseInFlight
  s.setUls { s.uls.clearMap with sync := .lost, current := none, pendingWindow := none, shareRef := none }

/-- R67: SYNC is lost at a miss count of 3 in RESYNC or SYNC. -/
def State.loseSync (s : State) : State :=
  if s.uls.miss = 3 ∧ (s.uls.sync = .resync ∨ s.uls.sync = .sync) then s.enterLost else s

/-- R58: the check of a marker. -/
def markerCheckOk (number : Half) (status : Vector Byte 32) (check : Half) : Bool :=
  decide (messageCheck (halfBytes number ++ status.toList) = check)

/-- R63: a valid marker of this number is late. -/
def Uls.late (u : Uls) (number : Half) : Bool := decide (number = u.f) && u.timerAdvanced

/-- R62: the timer period after a marker of this number, `elapsed` microseconds after the last valid one. -/
def Uls.periodAt (u : Uls) (number : Half) (elapsed : Nat) : Nat :=
  if u.lastMarker.map (· + 1) = some number ∧ 500 ≤ elapsed ∧ elapsed ≤ 2000 then elapsed + elapsed / 8 else u.period

/-- R66: a jump from F to a number crosses an epoch boundary. -/
def crossesEpoch (f number : Half) : Bool :=
  decide (shareEpochOf number ≠ shareEpochOf f) || !stampEarlier f number

/-- R66: in SYNC, a number other than F + 1 that is not late is a numbering jump. -/
def Uls.jumps (u : Uls) (number : Half) : Bool := decide (u.sync = .sync ∧ number ≠ u.f + 1)

/-- What every valid marker does at its start (R61, R62, R65, R81, R84, R85): the timer period, the number of the last
valid marker, the miss count, the grant map and, in SYNC, the granted-slots count. -/
def Uls.atMarker (u : Uls) (number : Half) (elapsed : Nat) : Uls :=
  { u.clearMap with
    period := u.periodAt number elapsed
    lastMarker := some number
    miss := 0
    granted := if u.sync = .sync then 0 else u.granted }

/-- R65, R66, R68: the sync transitions of a valid marker that is not late; F has not been set yet. -/
def Uls.markerSync (u : Uls) (number : Half) : Uls :=
  match u.sync with
  | .nosync => u.enterResync
  | .lost => u.enterResync
  | .resync => u
  | .sync => if u.jumps number && crossesEpoch u.f number then u.enterResync else u

/-- R63, R65: the sync transitions of a late marker. -/
def Uls.lateSync (u : Uls) : Uls :=
  match u.sync with
  | .nosync => u.enterResync
  | .lost => u.enterResync
  | _ => u

/-! ### The share epoch -/

/-- R69: F div 8 has changed since the last epoch start. -/
def State.epochDue (s : State) : Bool := decide (s.uls.shareEpoch ≠ shareEpochOf s.uls.f)

/-- R74, R75: the coverage counts rebuilt from the records of the current epoch of the peers with lower addresses. -/
def State.rebuiltCoverage (s : State) : List Nat :=
  ((s.pvu.peers.filter fun e => decide (e.address < s.csu.address)).flatMap fun e =>
    e.spans.filter fun r => r.current s.uls.f).foldl coverAdd (List.replicate 128 0)

/-- R70: the segments held by the eligible ports. -/
def State.heldEligible (s : State) : Nat := ((allPorts.filter s.eligible).map s.held).sum

/-- R70: the own demand, from Q and A. -/
def State.demandFor (s : State) (a : Nat) : Nat := min s.capacity ((s.heldEligible + a + 7) / 8)

/-- R71: the DEMAND report of this moment. -/
def State.demandReport (s : State) : Message :=
  .demand (natHalf (shareEpochOf s.uls.f)) (natByte s.uls.ownDemand) (natByte s.engine.weight)

/-- RESYNC or SYNC, the states in which reports are sent and shares cut (4.3). -/
def SyncState.following : SyncState → Bool
  | .resync => true
  | .sync => true
  | _ => false

/-- R69, items 1 and 2: the window that becomes current at the start of epoch e. -/
def Uls.turnWindows (u : Uls) (e : Nat) : Uls :=
  let current := (u.pendingWindow.filter fun w => decide (w.epoch = e)).map PendingWindow.window
  { u with
    shareEpoch := e
    current := current
    pendingWindow := none
    shareRef := none
    sync := if u.sync = .resync ∧ current.isSome = true then .sync else u.sync }

/-- R69: an epoch start. -/
def State.startEpoch (s : State) : State :=
  let s := s.setUls (s.uls.turnWindows (shareEpochOf s.uls.f))
  let s := s.setUls { s.uls with coverage := s.rebuiltCoverage }
  let a := s.uls.admitted
  let s := s.setUls { s.uls with admitted := 0, ownDemand := if s.inRun then s.demandFor a else s.uls.ownDemand }
  if s.inRun = true ∧ s.uls.sync.following = true then s.offer s.demandReport else s

/-- R72: a share cut is due. -/
def State.cutDue (s : State) : Bool :=
  s.inRun && s.uls.sync.following && decide (4 ≤ s.uls.f.toNat % 8) &&
    decide (s.uls.lastCut ≠ some (shareEpochOf s.uls.f))

/-- R24, R72: the requesters with a valid demand part. -/
def State.validDemands (s : State) : List Requester :=
  s.pvu.peers.filterMap fun e =>
    match e.demand with
    | some d => if d.valid then some ⟨e.address, d.demand, d.weight⟩ else none
    | none => none

/-- R72: the station share that a cut requests. -/
def State.shareRequest (s : State) : AuRequest :=
  let rs := byAddress (⟨s.csu.address, s.uls.ownDemand, s.engine.weight⟩ :: s.validDemands)
  { kind := .stationShare, reference := s.uls.f, requesters := rs, capacity := s.capacity,
    order := rs.map Requester.id }

/-- R72: a share cut. -/
def State.cut (s : State) : State :=
  (s.setUls { s.uls with lastCut := some (shareEpochOf s.uls.f), shareRef := some s.uls.f }).requestAu s.shareRequest

/-- R73: the window that a station share gives the engine. -/
def State.placedWindow (s : State) (q : AuRequest) : PendingWindow :=
  { epoch := (s.uls.lastCut.getD (shareEpochOf s.uls.f) + 1) % 8192
    window :=
      { start := s.engine.reserved +
          ((q.allocations.filter fun a => decide (a.1 < s.csu.address)).map Prod.snd).sum
        len := q.allocationTo s.csu.address } }

/-- R73: the SPAN CLAIM of a pending window. -/
def PendingWindow.report (w : PendingWindow) : Message :=
  .spanClaim (natHalf w.epoch) (natByte w.window.start) (natByte w.window.len)

/-- R73: a station-share completion is taken, or disregarded where its reference is not the outstanding one. -/
def State.takeStationShare (s : State) (q : AuRequest) : State :=
  if s.uls.shareRef = some q.reference then
    let w := s.placedWindow q
    (s.setUls { s.uls with pendingWindow := some w, shareRef := none }).offer w.report
  else s

/-! ### The grant map -/

/-- R78: slot k is usable. -/
def Uls.usable (u : Uls) (k : Nat) : Bool :=
  match u.current with
  | some w => decide (w.start ≤ k ∧ k < w.start + w.len) && decide (u.coverage.getD k 0 = 0)
  | none => false

/-- R78: the usable list. -/
def Uls.usableList (u : Uls) : List Nat := (List.range 128).filter u.usable

/-- R80: all ports in cyclic ascending order from the rotation pointer. -/
def rotated (r : PortNo) : List PortNo :=
  (allPorts.filter fun p => decide (r ≤ p)) ++ allPorts.filter fun p => decide (p < r)

/-- R80: the order list, the eligible ports in cyclic ascending order from the rotation pointer. -/
def State.orderList (s : State) : List PortNo := (rotated s.uls.rotation).filter s.eligible

/-- R80: the port division requested for the frame. -/
def State.divisionRequest (s : State) : AuRequest :=
  { kind := .portDivision, reference := s.uls.f
    requesters := (allPorts.filter s.eligible).map fun p => ⟨p.val, s.frameDemand p, (s.part p).weight⟩
    capacity := s.uls.usableList.length
    order := s.orderList.map Fin.val }

/-- R80, R85: the port division of a valid marker, in RUN and SYNC, when some port is eligible. -/
def State.requestDivision (s : State) : State :=
  if s.inRun = true ∧ s.uls.sync = .sync then
    let s := s.setUls { s.uls with granted := 0 }
    if s.orderList.isEmpty then s
    else
      (s.setUls { s.uls with division := some ⟨s.uls.f, s.uls.usableList, s.orderList⟩ }).requestAu s.divisionRequest
  else s

/-- R83: the rotation pointer moves to the next requester of the completion after it, in cyclic ascending order. -/
def movedRotation (r : PortNo) (ids : List Nat) : PortNo :=
  match ((allPorts.filter fun p => decide (r < p)) ++ allPorts.filter fun p => decide (p ≤ r)).find? fun p =>
      ids.contains p.val with
  | some p => p
  | none => r

/-- R82: the spans of the usable list in order-list order; each port with its slots. -/
def laySpans (q : AuRequest) : List PortNo → List Nat → List (PortNo × List Nat)
  | [], _ => []
  | p :: ps, usable =>
    (p, usable.take (q.allocationTo p.val)) :: laySpans q ps (usable.drop (q.allocationTo p.val))

/-- R82: a slot put in its place in a grant map of ascending slots. -/
def insertSlot (x : Nat × PortNo) : List (Nat × PortNo) → List (Nat × PortNo)
  | [] => [x]
  | y :: ys => if x.1 ≤ y.1 then x :: y :: ys else y :: insertSlot x ys

/-- R82: the grant map of spans. -/
def mapOf (spans : List (PortNo × List Nat)) : List (Nat × PortNo) :=
  (spans.flatMap fun x => x.2.map fun k => (k, x.1)).foldr insertSlot []

/-- R86: the granted slots of one port are filled. -/
def State.fillPort (s : State) (frame : Half) (x : PortNo × List Nat) : State :=
  x.2.foldl (fun s k => s.fillSlot x.1 frame k) s

/-- R82, R85 to R87: the grant map is built from a division in time, the transmit list is handed over, and the drains
it empties end (R101). -/
def State.buildMap (s : State) (q : AuRequest) (d : Division) : State :=
  let spans := (laySpans q d.order d.usable).filter fun x => s.eligible x.1
  let m := mapOf spans
  let s := s.setUls { s.uls with division := none, grantMap := m, granted := m.length }
  (spans.foldl (fun s x => s.fillPort d.reference x) s).endEmptyDrains

/-- R81, R83: a port-division completion is taken: the rotation pointer moves, and a division in time builds the
map. In time is what R81's comparison of references says, also where a repeated late marker has made two divisions with
one reference (log entry 43). -/
def State.takeDivision (s : State) (q : AuRequest) : State :=
  let s := s.setUls { s.uls with rotation := movedRotation s.uls.rotation (q.requesters.map Requester.id) }
  match s.uls.division with
  | some d => if d.reference = q.reference then s.buildMap q d else s
  | none => s

/-! ### The frame advance -/

/-- R100: the drain count of port p decreases while the port is DRAINING. -/
def State.countDrain (s : State) (p : PortNo) : State :=
  if (s.port p).state.isDraining then s.setPq p { s.pq p with drainCount := (s.pq p).drainCount - 1 } else s

/-- Every block's counts at a frame advance, each from the state at the advance (R42, R100, R130, R132, R140, R143,
R145, R154, R158), and the sample of R167. The sample comes before the mean of a power epoch that starts at the same
advance, so it is in that mean (DESIGN CHOICE, log entry 48, unsafe). -/
def State.countAll (s : State) (bus : Half) : State :=
  let s := allPorts.foldl State.countDrain s
  let s := allPorts.foldl State.countLine s.countClaims
  let s := (s.setMfe s.mfe.counted).setRunning (s.tsq.running.map RunningTest.counted)
  s.sample bus

/-- The PVU's due events for one resource at a frame advance (R32, R35, R36, R38). A refresh and a lapse that come due at
one advance are taken in this order, so HOLD is offered before RELEASE (log entry 42). A test that ends at a held notice
is followed at once (R144). -/
def State.claimDue (s : State) (r : ResourceNo) : State :=
  let s := if (s.claimOf r).expired then s.expireView r else s
  let s := if (s.claimOf r).settled then (s.doSettleEnd r).settleEvent else s
  let s := if (s.claimOf r).refreshDue then s.offerHold r else s
  let s := if (s.claimOf r).lapseDue then s.doLapse r else s
  if (s.claimOf r).holdOffDue then s.endHoldOff r else s

/-- R101: the drain of port p whose count has reached 0 ends. A test that ends with it is followed at once (R144). -/
def State.drainDue (s : State) (p : PortNo) : State :=
  if (s.port p).state.isDraining = true ∧ (s.pq p).drainCount = 0 then (s.doDrainEnd p).settleEvent else s

/-- R132: port p is ISOLATED, its FVD level false and its exit count 64: the LEU sends an unisolate. -/
def State.exitDue (s : State) (p : PortNo) : State :=
  if (s.port p).state = .isolated ∧ (s.line p).fvdLevel = false ∧ (s.line p).exit = 64 then s.unisolate p else s

/-- The running test is in this phase. -/
def State.runningIn (s : State) (f : RunningTest → Bool) : Bool := s.tsq.running.any f

/-- The running test's due events at a frame advance (R140, R143, R145), the end of a calibration attempt (R158), and
the preemption check (R146). -/
def State.testDue (s : State) (main check : Samples) : State :=
  let s := if s.runningIn fun t => decide (t.phase = .claim ∧ 256 ≤ t.claimWait) then s.endClaimWait else s
  let s := if s.runningIn fun t => decide (t.phase = .connected ∧ t.remainingHold = 0) then s.endAccessHold else s
  let s := if s.runningIn fun t => decide (t.phase = .step ∧ t.stage = .settling 0) then s.endStepSettle else s
  let s := if s.runningIn fun t => decide (t.phase = .step ∧ t.stage = .ended) then s.completeStep main check else s
  let s :=
    match s.mfe.activity with
    | .calibrating _ n => if 4 ≤ n then s.endCalibration main check else s
    | _ => s
  s.preemptCheck

/-- R27, R32 to R38, R69, R72, R80: the PVU's and the ULS's work of a frame advance; `division` asks for the port
division of a marker. -/
def State.shareWork (s : State) (division : Bool) : State :=
  let s := s.agePeers s.epochDue s.powerEpochDue
  let s := allResources.foldl State.claimDue s
  let s := if s.epochDue then s.startEpoch else s
  let s := if s.cutDue then s.cut else s
  if division then s.requestDivision else s

/-- R101, R130, R132, R138 to R146: the PQM's, LEU's, MFE's and TSQ's work of a frame advance. Drains and isolation exits
of several ports are taken in ascending port number, and LINK cells that they let ask do so in that order (log
entry 44). -/
def State.testWork (s : State) (main check : Samples) : State :=
  let s := allPorts.foldl State.drainDue s
  let s := (allPorts.foldl State.exitDue s).levelAskAll
  ((s.testDue main check).dueSelect).settleEvent

/-- R167, R168, R172, R173: the PMG's work of a frame advance. -/
def State.powerWork (s : State) : State :=
  let s := if s.powerEpochDue then s.startPowerEpoch.settleEvent else s
  if s.evaluationDue then s.evaluate.settleEvent else s

/-- R61: what a frame advance does once F, the miss count, the sync state and a marker's status list have been taken
(R64): every block counts, and then makes what has come due. The order among blocks is the model's (log entry 11). A
power epoch that starts at the advance forms its mean (`powerWork`) with the sample of the advance (`countAll`): DESIGN
CHOICE, log entry 48. -/
def State.advance (s : State) (readings : Readings) (division : Bool) : State :=
  (((s.countAll readings.bus).shareWork division).testWork readings.main readings.check).powerWork

/-! ### Markers and the timer -/

/-- R61, R64 to R66: a valid marker that is not late. -/
def State.takeMarker (s : State) (number : Half) (status : Vector Byte 32) (elapsed : Nat) (readings : Readings) :
    State :=
  let u := (s.uls.atMarker number elapsed).markerSync number
  let jump := s.uls.jumps number
  let s := (s.setUls { u with f := number, timerAdvanced := false }).markerStatus jump number status
  s.advance readings true

/-- R63: a late marker. -/
def State.takeLateMarker (s : State) (number : Half) (status : Vector Byte 32) (elapsed : Nat) : State :=
  let s := (s.setUls (s.uls.atMarker number elapsed).lateSync).takeStatus number status
  s.requestDivision

/-- R58, R63: a frame marker; one whose check fails is ignored entirely. -/
def State.marker (s : State) (number : Half) (status : Vector Byte 32) (check : Half) (elapsed : Nat)
    (readings : Readings) : State :=
  if markerCheckOk number status check then
    if s.uls.late number then s.takeLateMarker number status elapsed
    else s.takeMarker number status elapsed readings
  else s

/-- R61, R64, R65, R67: an expiry of the local frame timer. -/
def State.timerExpiry (s : State) (readings : Readings) : State :=
  let u := s.uls.clearMap
  let s := s.setUls { u with f := u.f + 1, miss := min 3 (u.miss + 1), timerAdvanced := true }
  s.loseSync.advance readings false

/-! ### Downstream segments -/

/-- R59, R185: a downstream segment is this engine's to deliver: its check is right, its fields are in range, and it
carries the engine's own address. -/
def State.downstreamFor (s : State) (station port len : Byte) (payload : List Byte) (check : Half) : Option PortNo :=
  if messageCheck (station :: port :: len :: payload) = check ∧ station.toNat = s.csu.address ∧ 1 ≤ len.toNat ∧
      len.toNat ≤ 64 ∧ payload.length = len.toNat then portOf port
  else none

/-- R59, R105: a downstream segment. -/
def State.downstream (s : State) (station port len : Byte) (payload : List Byte) (check : Half) : State :=
  match s.downstreamFor station port len payload check with
  | some p => s.deliver p payload
  | none => s

end Sys2Proof.Machine
end

