-- ==== Sys2Proof/Machine/Station.lean ====
section
/-!
DEFINITION. The Configuration and Status Unit (Chapter 12) and what it reaches: configuration and the entry to RUN
(R179, R180), CONFLICT (R16, R181), RESTART (R22, R182), power-on reset (R178), and the requests to the TSQ and the LEU
(R127, R135, R136, R151).
-/
namespace Sys2Proof.Machine

/-- The state with the CSU replaced. -/
def State.setCsu (s : State) (c : Csu) : State := { s with csu := c }

/-- The state with the LEU replaced. -/
def State.setLeu (s : State) (l : Leu) : State := { s with leu := l }

/-! ### Request kinds -/

/-- R184, R185: the request-kind bytes of an ANSWER. -/
def kindTestOrder : Byte := 7
/-- R184: TEST CANCEL. -/
def kindTestCancel : Byte := 8
/-- R184: STATUS QUERY. -/
def kindStatusQuery : Byte := 10
/-- R184: CLEAR EVENTS. -/
def kindClearEvents : Byte := 12
/-- R185: CONFIGURE ENGINE. -/
def kindConfigureEngine : Byte := 13
/-- R185: CONFIGURE PORT, 13 with its high bit set. -/
def kindConfigurePort : Byte := 141
/-- R184: RESTART. -/
def kindRestart : Byte := 14

/-! ### Entry to RUN -/

/-- R179: the image is complete. -/
def Csu.complete (c : Csu) : Bool :=
  match c.engine with
  | some e => allPorts.all fun p => !e.fits p || (tget c.ports p).isSome
  | none => false

/-- R123: a cell takes its sense mode and priority. -/
def Cell.take (x : Cell) (c : CellSetting) : Cell := { x with mode := c.mode, priority := c.priority }

/-- R123: the LEU takes the sense modes and priorities of port p. -/
def State.takeModes (s : State) (p : PortNo) : State :=
  let l := s.line p
  let part := s.part p
  s.setLine p { l with link := l.link.take part.link, fvd := l.fvd.take part.fvd, gflt := l.gflt.take part.gflt }

/-- R131: an isolate for a port that enters IN SERVICE from UNFITTED while its FVD level is true. -/
def State.isolateStanding (s : State) (p : PortNo) : State := if (s.line p).fvdLevel then s.doIsolate p else s

/-- R121, R123, R131, R177, R180: the engine enters RUN. Level cells that are pending ask as soon as the modes are
taken (R130; their order is log entry 36's). The TSQ's selection for an entry they queue comes last, after the isolations
of standing foreign voltage and the sheds at once of tier 4, at the close of the event: DESIGN CHOICE, log entry 50
(unsafe). -/
def State.enterRun (s : State) : State :=
  let ps := s.configuredPorts
  let s := s.setCsu { s.csu with state := .run }
  let s := ps.foldl (fun s p => s.enter p .inService) s
  let s := (ps.foldl State.takeModes s).levelAskAll
  let s := ps.foldl State.isolateStanding s
  (if s.pmg.tier = 4 then ps.foldl State.doShedAtOnce s else s).settleEvent

/-! ### CONFIGURE -/

/-- R180: completeness is judged after an ACCEPTED part, once its ANSWER has been offered. -/
def State.runIfComplete (s : State) : State := if s.csu.complete then s.enterRun else s

/-- R179: a CONFIGURE ENGINE. -/
def State.configureEngine (s : State) (src : Byte) (tag : Half) (f : EngineFields) : State :=
  if s.csu.state ≠ .unconfigured then s.answer src kindConfigureEngine tag .already 0
  else if f.bad then s.answer src kindConfigureEngine tag .badValue 0
  else
    ((s.setCsu { s.csu with engine := some f.clamped }).answer src kindConfigureEngine tag .accepted 0).runIfComplete

/-- R179: a CONFIGURE PORT. -/
def State.configurePort (s : State) (src : Byte) (tag : Half) (f : PortFields) : State :=
  if s.csu.state ≠ .unconfigured then s.answer src kindConfigurePort tag .already 0
  else
    match f.clamped with
    | none => s.answer src kindConfigurePort tag .badValue 0
    | some (p, part) =>
      ((s.setCsu { s.csu with ports := tput s.csu.ports p (some part) }).answer src kindConfigurePort tag .accepted
        0).runIfComplete

/-! ### CONFLICT -/

/-- R16: the transmit queue at the entry to CONFLICT: only the entry in SENDING stays, and a collision drops it. -/
def Pbi.enterConflict (b : Pbi) : Pbi :=
  match b.tx with
  | .sending o =>
    { b with queue := (b.queue.filter fun e => decide (e.order = o)).map fun e => { e with fate := .dropCounted } }
  | _ => { b with queue := [], tx := .idle }

/-- R150: an aborted test's port is given back, without a record. -/
def State.giveBack (s : State) (t : RunningTest) : State :=
  (s.sourceOff.disconnect t.entry.port).returnPort t.entry.port

/-- R150: the TSQ at the entry to CONFLICT: every test is aborted without a record, and the queue is emptied without a
notice. -/
def State.dropTests (s : State) : State :=
  let ts := s.tsq.running.toList ++ s.tsq.stack.map Context.test
  let s := ts.foldl State.giveBack s
  s.setTsq { s.tsq with queue := [], running := none, stack := [], selectDue := false }

/-- R76, R94: the ULS at the entry to CONFLICT. -/
def State.releaseLane (s : State) : State :=
  let s := allPorts.foldl State.discardForConflict s.releaseInFlight
  s.setUls { s.uls.clearMap with current := none, pendingWindow := none, shareRef := none
                                 sync := if s.uls.sync = .sync then .resync else s.uls.sync }

/-- R133: a cell's request is set back. -/
def Cell.setBack (x : Cell) : Cell := { x with request := .idle }

/-- R133: the requests of one port's cells are set back. -/
def LeuPort.setBack (l : LeuPort) : LeuPort :=
  { l with link := l.link.setBack, fvd := l.fvd.setBack, gflt := l.gflt.setBack }

/-- R133: the LEU at the entry to CONFLICT. -/
def State.setBackCells (s : State) : State := s.setLeu { s.leu with ports := tmap LeuPort.setBack s.leu.ports }

/-- R16, R181: the entry to CONFLICT. The engine state changes first, and then each block acts. A drain that the
discard of R76 has emptied ends (R101). -/
def State.enterConflict (s : State) : State :=
  let s := s.setCsu { s.csu with state := .conflict }
  let s := (s.setPbi s.pbi.enterConflict).releaseForReset false
  let s := s.dropTests.releaseLane.setBackCells
  (s.setPmg { s.pmg with powerRef := none }).endEmptyDrains

/-- R16: a SELF discard moves an engine in UNCONFIGURED or RUN to CONFLICT. -/
def State.selfDiscard (s : State) : State := if s.csu.state = .conflict then s else s.enterConflict

/-! ### Power-on reset and RESTART -/

/-- R166: the MAINS level as the PMG reads it after a reset; a low one is a falling edge (R169). The engine is not in
RUN at that moment (log entry 12). -/
def State.readMains (s : State) (high : Bool) : State :=
  if high then s.setPmg { s.pmg with pin := true } else s.fall

/-- R122, R123, R132: the LEU's state of one port after a power-on reset with these comparator outputs. -/
def LeuPort.read (fvd gflt : Bool) : LeuPort := { LeuPort.powerOn with fvdLevel := fvd, gfltLevel := gflt }

/-- R178: the state at the end of RESET. The waiting commands are no part of the engine and stay. -/
def State.powerOn (s : State) (strap : BitVec 4) (fvd gflt : BitVec 12) (mains : Bool) : State :=
  let l : Leu := { Leu.powerOn with ports := portTable fun p => LeuPort.read (fvd.getLsbD p.val) (gflt.getLsbD p.val) }
  let r : State :=
    { State.reset with csu := { Csu.powerOn with address := strap.toNat + 1 }, leu := l, pending := s.pending,
                       freeDraws := s.freeDraws }
  r.readMains mains

/-- R22: the transmit queue at a RESTART: entries a RESTART has offered and the entry in SENDING stay. -/
def Pbi.restart (b : Pbi) : Pbi :=
  let q := b.queue.filterMap fun e =>
    if b.tx.sendingOrder e.order then some (if e.byRestart then e else { e with fate := .dropSilent })
    else if e.byRestart then some e
    else none
  let tx :=
    match b.tx with
    | .sending o => .sending o
    | .backoff o w => if q.any fun e => decide (e.order = o) then .backoff o w else txAfter q
    | _ => txAfter q
  { b with rx := .idle, ownEnded := false, tx := tx, queue := q, rxValid := 0, rxDiscard := 0, collisions := 0,
           txDropped := 0, errors := ErrorSet.empty }

/-- R123: a cell at a RESTART keeps its mode and priority. -/
def Cell.restart (x : Cell) : Cell := { Cell.powerOn with mode := x.mode, priority := x.priority }

/-- R122, R123, R132, R133: the LEU's state of one port at a RESTART; the comparators' levels stand as they are. -/
def LeuPort.restart (l : LeuPort) : LeuPort :=
  { link := l.link.restart, fvd := l.fvd.restart, gflt := l.gflt.restart, fvdLevel := l.fvdLevel,
    gfltLevel := l.gfltLevel, exit := 0 }

/-- R182: the CSU at a RESTART, before a complete image takes the engine to RUN: an incomplete image is emptied. -/
def Csu.restart (c : Csu) : Csu :=
  if c.complete then { c with state := .unconfigured } else { Csu.powerOn with address := c.address }

/-- R182: every block but the PBI takes its power-on values. -/
def State.restartBlocks (s : State) : State :=
  { s with csu := s.csu.restart, pvu := Pvu.powerOn, au := Au.powerOn, uls := Uls.powerOn, pqm := Pqm.powerOn
           ptc := Vector.replicate 12 PortRecord.powerOn
           leu := { ports := tmap LeuPort.restart s.leu.ports, report := 0, leaveDue := false }
           tsq := Tsq.powerOn, mfe := Mfe.powerOn, pmg := { Pmg.powerOn with pin := s.pmg.pin } }

/-- R22, R41, R182: a RESTART: the ANSWER, the RELEASEs, the PBI's re-initialisation, every other block, the MAINS
level, and the entry to RUN with a complete image. -/
def State.restart (s : State) (src : Byte) (tag : Half) : State :=
  let s := s.offerPast (.answer src kindRestart tag .accepted 0) true
  let s := s.releaseForReset true
  let s := (s.setPbi s.pbi.restart).restartBlocks
  (s.readMains s.pmg.pin).runIfComplete

/-! ### CLEAR EVENTS -/

/-- R127: a listed cell that is latched with seen yes is cleared. -/
def Cell.clear (x : Cell) : Cell :=
  if x.mode.isEdge = true ∧ x.latched = true ∧ x.seen = true then
    { x with latched := false, seen := false, request := .idle }
  else x

/-- R127: a pair of port and condition, when both are named. -/
def pairOf (x : Byte × Byte) : Option (PortNo × Condition) :=
  match portOf x.1, conditionOf x.2 with
  | some p, some c => some (p, c)
  | _, _ => none

/-- R127: the outcome of a CLEAR EVENTS. -/
def State.clearOutcome (s : State) (report : Byte) (pairs : List (Byte × Byte)) : AnswerCode :=
  if s.csu.state = .unconfigured then .unconfigured
  else if pairs.any fun x => (pairOf x).isNone then .badValue
  else if report ≠ s.leu.report then .stale
  else .accepted

/-- R127: one listed pair of an accepted CLEAR EVENTS. -/
def State.clearPair (s : State) (x : Byte × Byte) : State :=
  match pairOf x with
  | some (p, c) => s.setCell p c (s.cell p c).clear
  | none => s

/-- R127: a CLEAR EVENTS. -/
def State.clearEvents (s : State) (src : Byte) (tag : Half) (report : Byte) (pairs : List (Byte × Byte)) : State :=
  let o := s.clearOutcome report pairs
  let s := if o = .accepted then pairs.foldl State.clearPair s else s
  s.answer src kindClearEvents tag o 0

/-! ### TEST ORDER and TEST CANCEL -/

/-- R135: the hold time of an order, for ACCESS only. -/
def orderHold (k : TestKind) (holdTime : Half) : Nat := if k = .access then clampNat 1 600 holdTime.toNat else 0

/-- R135: the outcome of an order whose port and kind are named. -/
def State.orderFor (s : State) (p : PortNo) (k : TestKind) : AnswerCode :=
  if s.fitted p = false then .noPort
  else if s.mfe.failed then .frontEnd
  else if 3 ≤ s.pmg.tier.val then .power
  else if (k = .ir ∨ k = .cap ∨ k = .full) ∧ (s.port p).state = .isolated then .isolated
  else if s.active p k = true ∨ ((s.queued? p k).any fun e => decide (e.requester ≠ 0)) = true then .duplicate
  else if (s.queued? p k).isNone = true ∧ queueCapacity ≤ s.tsq.queue.length then .queueFull
  else .accepted

/-- R135: the outcome of a TEST ORDER, the first condition that holds, with the port and kind of an accepted one. -/
def State.orderOutcome (s : State) (port kind : Byte) : AnswerCode × Option (PortNo × TestKind) :=
  if s.csu.state = .unconfigured then (.unconfigured, none)
  else if s.csu.state = .conflict then (.conflict, none)
  else
    match testKindOf kind, portOf port with
    | none, _ => (.badKind, none)
    | some _, none => (.noPort, none)
    | some k, some p =>
      let o := s.orderFor p k
      (o, if o = .accepted then some (p, k) else none)

/-- R136: the accepted order takes over the automatic entry e. -/
def State.takeOver (s : State) (e : QueueEntry) (src : Byte) (tag : Half) (prio : Nat) : State :=
  let e' := { e with requester := src.toNat, tag := tag, priority := max e.priority prio }
  s.setTsq { s.tsq with queue := insertEntry e' (dropMade s.tsq.queue e.made) }

/-- R135, R136: an accepted order makes its entry or takes one over. -/
def State.placeOrder (s : State) (src : Byte) (tag : Half) (p : PortNo) (k : TestKind) (prio hold : Nat) : State :=
  match s.queued? p k with
  | some e => s.takeOver e src tag prio
  | none =>
    s.addEntry { requester := src.toNat, tag := tag, port := p, kind := k, priority := prio, holdTime := hold,
                 arrival := s.uls.f, origin := .order, made := 0 }

/-- R134: the queue position of the entry of this port and kind, from 1. -/
def State.queuePosition (s : State) (p : PortNo) (k : TestKind) : Nat :=
  s.tsq.queue.findIdx (fun e => decide (e.port = p) && decide (e.kind = k)) + 1

/-- R135: a TEST ORDER: the entry, the ANSWER, and then the selection it makes due. -/
def State.testOrder (s : State) (src : Byte) (tag : Half) (port kind priority : Byte) (holdTime : Half) : State :=
  match s.orderOutcome port kind with
  | (o, some (p, k)) =>
    let s := s.placeOrder src tag p k (clampNat 1 15 priority.toNat) (orderHold k holdTime)
    (s.answer src kindTestOrder tag o (s.queuePosition p k)).settleEvent
  | (o, none) => s.answer src kindTestOrder tag o 0

/-- R151: the entry is the test of station x with this tag. -/
def QueueEntry.orderedBy (e : QueueEntry) (x : Nat) (tag : Half) : Bool :=
  decide (e.requester = x) && decide (e.tag = tag)

/-- R151: what a TEST CANCEL matches: the queue first, then the running test, then the stack. -/
inductive CancelMatch
  | entry (e : QueueEntry)
  | running (t : RunningTest)
  | suspended (c : Context)
deriving DecidableEq, Repr

/-- R151: the first match; the stack is searched from its top (log entry 40). -/
def State.cancelMatch? (s : State) (x : Nat) (tag : Half) : Option CancelMatch :=
  match s.tsq.queue.find? fun e => e.orderedBy x tag with
  | some e => some (.entry e)
  | none =>
    match s.tsq.running.filter fun t => t.entry.orderedBy x tag with
    | some t => some (.running t)
    | none => (s.tsq.stack.find? fun c => c.test.entry.orderedBy x tag).map .suspended

/-- R151: the matched test ends with cause ORDER. -/
def State.cancelTest (s : State) : CancelMatch → State
  | .entry e => s.removeEntry e .order
  | .running t => s.finishTest t (some .order) true true
  | .suspended c => s.finishSuspended c .order true

/-- R151, R184: a TEST CANCEL. -/
def State.testCancel (s : State) (src : Byte) (tag : Half) : State :=
  if s.csu.state = .unconfigured then s.answer src kindTestCancel tag .unconfigured 0
  else
    match s.cancelMatch? src.toNat tag with
    | some m => ((s.answer src kindTestCancel tag .accepted 0).cancelTest m).settleEvent
    | none => s.answer src kindTestCancel tag .notFound 0

end Sys2Proof.Machine
end

