-- ==== Sys2Proof/Machine/Status.lean ====
section
/-!
DEFINITION. Status replies (R20, R57, R106, R126, R153, R183, R185): the contents of the seven selectors, what a query
clears, and the ANSWERs of refused queries. A field whose content is absent and whose bytes R185 does not state is a
free value (log entry 3).
-/
namespace Sys2Proof.Machine

/-! ### ENGINE -/

/-- R185: the ENGINE contents, 33 bytes. -/
def State.engineContents (s : State) : List Byte :=
  let d := s.freeDraws
  let (start, len) := match s.uls.current with
    | some w => (natByte w.start, natByte w.len)
    | none => (Config.freeByte d, Config.freeByte (d + 1))
  let calibration := s.mfe.lastCalibration.getD (Config.freeHalf (d + 2))
  let mean := (s.pmg.lastMean.map natHalf).getD (Config.freeHalf (d + 3))
  let known := s.csu.engine.isSome
  let eWant := if known then natHalf s.eWant else Config.freeHalf (d + 4)
  let present := if known then natHalf s.presentLoad else Config.freeHalf (d + 5)
  [s.csu.state.code, natByte s.pmg.tier.val, s.pmg.mains.code, s.uls.sync.code] ++ halfBytes s.uls.f ++
    [start, len, natByte s.uls.granted] ++ natHalfBytes s.pqm.free ++ halfBytes s.pbi.rxValid ++
    halfBytes s.pbi.rxDiscard ++ halfBytes s.pbi.collisions ++ halfBytes s.pbi.txDropped ++
    [s.pbi.errors.toByte,
      engineFlags s.uls.current.isNone s.mfe.lastCalibration.isNone s.pmg.lastMean.isNone s.mfe.failed] ++
    halfBytes calibration ++ halfBytes mean ++ halfBytes eWant ++ natHalfBytes s.sWant ++ natHalfBytes s.fWant ++
    halfBytes present

/-- R20: the counters and the error set are cleared. -/
def Pbi.clearCounters (b : Pbi) : Pbi :=
  { b with rxValid := 0, rxDiscard := 0, collisions := 0, txDropped := 0, errors := ErrorSet.empty }

/-! ### PORT -/

/-- R185: the PORT contents of p, 26 bytes. -/
def State.portContents (s : State) (p : PortNo) : List Byte :=
  let r := s.port p
  let q := s.pq p
  let cls := match tget s.csu.ports p with
    | some part => natByte part.cls.code
    | none => Config.freeByte s.freeDraws
  let age : Half := match q.queue with
    | x :: _ => s.uls.f - x.admitted
    | [] => 0xFFFF
  [natByte p.val, r.state.code, portFlags r cls, natByte q.drainCount] ++ natHalfBytes (s.queued p) ++
    natHalfBytes q.queue.length ++ halfBytes age ++ natHalfBytes (s.retransmits p) ++
    halfBytes q.counters.notInService ++ halfBytes q.counters.portLimit ++ halfBytes q.counters.poolEmpty ++
    halfBytes q.counters.segmentLost ++ halfBytes q.counters.unconfirmed ++ halfBytes q.counters.discarded ++
    halfBytes q.counters.downstreamDropped

/-! ### EVENTS -/

/-- R185: a set of cells as 5 bytes, the cell of port p and condition c at bit 3p + c of 40 bits. Bits 39 to 36,
which belong to no cell, are 0: DESIGN CHOICE, log entry 49 (unsafe). -/
def cellSet (f : PortNo → Condition → Bool) : List Byte :=
  let n := (allCells.map fun x => if f x.1 x.2 then 2 ^ (3 * x.1.val + x.2.code) else 0).sum
  [4, 3, 2, 1, 0].map fun i => natByte (n / 256 ^ i)

/-- R126: a latched cell is shown. -/
def Cell.show (x : Cell) : Cell := if x.latched then { x with seen := true } else x

/-- R126: the cells of one port are shown. -/
def LeuPort.show (l : LeuPort) : LeuPort := { l with link := l.link.show, fvd := l.fvd.show, gflt := l.gflt.show }

/-- R126: what building an EVENTS reply does in the LEU. -/
def State.showEvents (s : State) : State :=
  s.setLeu { s.leu with report := s.leu.report + 1, ports := tmap LeuPort.show s.leu.ports }

/-- R126, R185: the EVENTS contents, 11 bytes. -/
def State.eventsContents (s : State) : List Byte :=
  [s.leu.report] ++ cellSet s.cellPending ++ cellSet fun p c => (s.cell p c).seen

/-! ### TESTS, LOG -/

/-- R185: how many queue entries a TESTS reply shows. -/
def testsShown : Nat := 7

/-- R153, R185: the TESTS contents, at most 44 bytes. -/
def State.testsContents (s : State) : List Byte :=
  let d := s.freeDraws
  let running := match s.tsq.running with
    | some t =>
      [natByte t.entry.port.val, natByte t.entry.kind.code, t.phase.code, natByte t.step, natByte t.entry.requester]
    | none => [255, Config.freeByte d, Config.freeByte (d + 1), Config.freeByte (d + 2), Config.freeByte (d + 3)]
  [natByte s.tsq.queue.length] ++ running ++ [natByte s.tsq.stack.length] ++
    (s.tsq.stack.flatMap fun c =>
      [natByte c.test.entry.port.val, natByte c.test.entry.kind.code, natByte c.test.step]) ++
    (s.tsq.queue.take testsShown).flatMap fun e =>
      [natByte e.port.val, natByte e.kind.code, natByte e.priority, natByte e.requester]

/-- R153, R183: the log entry whose sequence number has this index as its low eight bits. -/
def State.logEntry? (s : State) (index : Byte) : Option (Half × ResultRecord) :=
  s.tsq.log.find? fun x => decide (x.1.extractLsb' 0 8 = index)

/-- R185: the LOG contents of an entry; the first name of a byte of two is in its high four bits (log entry 7). -/
def logBytes (n : Half) (r : ResultRecord) : List Byte :=
  halfBytes n ++ [natByte r.requester] ++ halfBytes r.tag ++
    [natByte (16 * r.port.val + r.kind.code), natByte (16 * r.verdict.code + r.fail.toByte.toNat),
      natByte (16 * causeCode r.cause + r.values.length)] ++
    halfBytes r.start ++ halfBytes r.finish ++ r.values.flatMap StepValue.bytes

/-- R183, R185: the LOG contents, an entry or GONE. -/
def State.logContents (s : State) (index : Byte) : List Byte :=
  match s.logEntry? index with
  | some (n, r) => logBytes n r
  | none => [0xFF, 0xFF]

/-! ### CLAIMS, PEER -/

/-- R28, R185: the CLAIMS contents, 45 bytes. -/
def State.claimsContents (s : State) : List Byte :=
  allResources.flatMap fun r =>
    let c := s.claimOf r
    claimByte c :: halfBytes c.stamp ++ halfBytes c.lastRefresh

/-- R185: the demand part of a PEER reply, zeros where absent. -/
def demandBytes : Option DemandPart → List Byte
  | some d => halfBytes d.epoch ++ [natByte d.demand, natByte d.weight, natByte d.age]
  | none => List.replicate 5 0

/-- R185: one span record of a PEER reply, zeros where absent. -/
def spanBytes : Option SpanRecord → List Byte
  | some r => halfBytes r.epoch ++ [r.start, r.len]
  | none => List.replicate 4 0

/-- R185: the load part of a PEER reply, zeros where absent. -/
def loadBytes : Option LoadPart → List Byte
  | some l =>
    halfBytes l.epoch ++ halfBytes l.eWant ++ halfBytes l.sWant ++ halfBytes l.fWant ++ halfBytes l.present ++
      [natByte l.tier, natByte l.age]
  | none => List.replicate 12 0

/-- R23, R183, R185: the PEER contents for address a, 27 bytes. The address byte of a reply showing no entry is free
(log entry 3). The span records stand in the order of the list, the one that joined first in the first place (log
entry 46). -/
def State.peerContents (s : State) (a : Nat) : List Byte :=
  let e := s.peerOrFresh a
  let address := if (s.peer? a).isSome then natByte a else Config.freeByte s.freeDraws
  [address, peerFlags e.demand.isSome (e.demand.any DemandPart.valid) e.load.isSome (e.load.any LoadPart.valid)
      e.spans.length] ++
    demandBytes e.demand ++ spanBytes e.spans[0]? ++ spanBytes e.spans[1]? ++ loadBytes e.load

/-! ### Queries -/

/-- R185: the selector codes. -/
def selEngine : Byte := 0
/-- R185: PORT. -/
def selPort : Byte := 1
/-- R185: EVENTS. -/
def selEvents : Byte := 2
/-- R185: TESTS. -/
def selTests : Byte := 3
/-- R185: LOG. -/
def selLog : Byte := 4
/-- R185: CLAIMS. -/
def selClaims : Byte := 5
/-- R185: PEER. -/
def selPeer : Byte := 6

/-- R183: a STATUS REPLY is offered. -/
def State.reply (s : State) (src : Byte) (tag : Half) (selector : Byte) (contents : List Byte) : State :=
  s.offer (.statusReply src tag selector contents)

/-- R183: a refused STATUS QUERY is answered. -/
def State.refuseQuery (s : State) (src : Byte) (tag : Half) (o : AnswerCode) : State :=
  s.answer src kindStatusQuery tag o 0

/-- R20, R183: ENGINE. A clear flag of any value but 0 is taken as set (log entry 13). -/
def State.queryEngine (s : State) (src : Byte) (tag : Half) (clear : Byte) : State :=
  let contents := s.engineContents
  let s := s.drawn 6
  let s := if clear = 0 then s else s.setPbi s.pbi.clearCounters
  s.reply src tag selEngine contents

/-- R106, R183: PORT. -/
def State.queryPort (s : State) (src : Byte) (tag : Half) (index clear : Byte) : State :=
  if s.csu.state = .unconfigured then s.refuseQuery src tag .unconfigured
  else
    match portOf index with
    | none => s.refuseQuery src tag .badValue
    | some p =>
      let contents := s.portContents p
      let s := s.drawn 1
      let s := if clear = 0 then s else s.setPq p { s.pq p with counters := PortCounters.zero }
      s.reply src tag selPort contents

/-- R126, R183: EVENTS. -/
def State.queryEvents (s : State) (src : Byte) (tag : Half) : State :=
  if s.csu.state = .unconfigured then s.refuseQuery src tag .unconfigured
  else
    let s := s.showEvents
    s.reply src tag selEvents s.eventsContents

/-- R153, R183: TESTS. -/
def State.queryTests (s : State) (src : Byte) (tag : Half) : State :=
  if s.csu.state = .unconfigured then s.refuseQuery src tag .unconfigured
  else (s.drawn 4).reply src tag selTests s.testsContents

/-- R153, R183: LOG. -/
def State.queryLog (s : State) (src : Byte) (tag : Half) (index : Byte) : State :=
  if s.csu.state = .unconfigured then s.refuseQuery src tag .unconfigured
  else s.reply src tag selLog (s.logContents index)

/-- R28, R183: CLAIMS. -/
def State.queryClaims (s : State) (src : Byte) (tag : Half) : State :=
  if s.csu.state = .unconfigured then s.refuseQuery src tag .unconfigured
  else s.reply src tag selClaims s.claimsContents

/-- R23, R183: PEER. -/
def State.queryPeer (s : State) (src : Byte) (tag : Half) (index : Byte) : State :=
  if s.csu.state = .unconfigured then s.refuseQuery src tag .unconfigured
  else if index.toNat < 1 ∨ 16 < index.toNat then s.refuseQuery src tag .badValue
  else (s.drawn 1).reply src tag selPeer (s.peerContents index.toNat)

/-- R183: a selector code that names none of the seven. -/
def State.queryUnknown (s : State) (src : Byte) (tag : Half) : State :=
  if s.csu.state = .unconfigured then s.refuseQuery src tag .unconfigured else s.refuseQuery src tag .badValue

/-- R183: a STATUS QUERY by its selector. -/
def State.query (s : State) (src : Byte) (tag : Half) (selector index clear : Byte) : State :=
  match selector.toNat with
  | 0 => s.queryEngine src tag clear
  | 1 => s.queryPort src tag index clear
  | 2 => s.queryEvents src tag
  | 3 => s.queryTests src tag
  | 4 => s.queryLog src tag index
  | 5 => s.queryClaims src tag
  | 6 => s.queryPeer src tag index
  | _ => s.queryUnknown src tag

end Sys2Proof.Machine
end

