-- ==== Sys2Proof/Machine/Messages.lean ====
section
/-!
DEFINITION. Received messages: what the PVU and the CSU do with each kind (R15, R17), and the evaluation of a complete
message at its end (R13, R14, R16 to R19).
-/
namespace Sys2Proof.Machine

/-! ### Reports and claim messages, handed to the PVU -/

/-- R15, R24: a DEMAND. -/
def State.takeDemand (s : State) (src : Byte) (epoch : Half) (amount weight : Byte) : State :=
  if s.fromPeer src then s.hearDemand src.toNat epoch amount weight else s

/-- R15, R25: a SPAN CLAIM. -/
def State.takeSpan (s : State) (src : Byte) (epoch : Half) (start len : Byte) : State :=
  if s.fromPeer src then s.hearSpan src.toNat epoch start len else s

/-- R15, R26: a LOAD. -/
def State.takeLoad (s : State) (src : Byte) (epoch ew sw fw pl : Half) (tier : Byte) : State :=
  if s.fromPeer src then s.hearLoad src.toNat epoch ew sw fw pl tier else s

/-- R28: a claim message acts on its resource; one above 8 leaves the view unchanged. -/
def State.onResource (s : State) (src resource : Byte) (f : ResourceNo → State) : State :=
  if s.fromPeer src then
    match resourceOf resource with
    | some r => f r
    | none => s
  else s

/-- R30, R35, R36: a CLAIM. -/
def State.takeClaim (s : State) (src resource : Byte) (stamp : Half) : State :=
  s.onResource src resource fun r => s.hearClaim r src.toNat stamp

/-- R30, R35, R37: a HOLD. -/
def State.takeHold (s : State) (src resource : Byte) (stamp : Half) : State :=
  s.onResource src resource fun r => (s.hearHold r src.toNat stamp).settleEvent

/-- R31: a RELEASE. -/
def State.takeRelease (s : State) (src resource : Byte) : State :=
  s.onResource src resource fun r => s.hearRelease r src.toNat

/-! ### Requests, handed to the CSU -/

/-- R14, R15: a request is taken from a station address other than the engine's own. -/
def State.fromStationDo (s : State) (src : Byte) (t : State) : State := if s.fromStation src then t else s

/-- R17, R185: a request by its kind. -/
def State.takeRequest (s : State) (m : RxMessage) : State :=
  let bs := m.payload
  let tag := halfAt bs 0
  match m.kind.toNat with
  | 7 => s.testOrder m.source tag (byteAt bs 2) (byteAt bs 3) (byteAt bs 4) (halfAt bs 5)
  | 8 => s.testCancel m.source tag
  | 10 => s.query m.source tag (byteAt bs 2) (byteAt bs 3) (byteAt bs 4)
  | 12 => s.clearEvents m.source tag (byteAt bs 2) (pairsOf bs)
  | 13 =>
    if byteAt bs 2 = 1 then s.configureEngine m.source tag (engineFieldsOf bs)
    else s.configurePort m.source tag (portFieldsOf bs)
  | 14 => s.restart m.source tag
  | _ => s

/-- R17, R185: a report or claim message by its kind. -/
def State.takeReport (s : State) (m : RxMessage) : State :=
  let bs := m.payload
  match m.kind.toNat with
  | 1 => s.takeDemand m.source (halfAt bs 0) (byteAt bs 2) (byteAt bs 3)
  | 2 => s.takeSpan m.source (halfAt bs 0) (byteAt bs 2) (byteAt bs 3)
  | 3 => s.takeLoad m.source (halfAt bs 0) (halfAt bs 2) (halfAt bs 4) (halfAt bs 6) (halfAt bs 8) (byteAt bs 10)
  | 4 => s.takeClaim m.source (byteAt bs 0) (halfAt bs 1)
  | 5 => s.takeHold m.source (byteAt bs 0) (halfAt bs 1)
  | 6 => s.takeRelease m.source (byteAt bs 0)
  | _ => s

/-- R17: a valid message is routed by its destination and kind. -/
def State.route (s : State) (m : RxMessage) : State :=
  if m.dest.toNat = s.csu.address then s.fromStationDo m.source (s.takeRequest m)
  else if m.dest.toNat = 0 then s.takeReport m
  else s

/-! ### The end of a message -/

/-- The transmitter is in SENDING: what the line carries is the engine's own message. -/
def TxState.isSending : TxState → Bool
  | .sending _ => true
  | _ => false

/-- R18: RX VALID increases by 1. -/
def State.countRxValid (s : State) : State := s.setPbi { s.pbi with rxValid := satInc s.pbi.rxValid }

/-- R14, R16, R17: a complete message that is not the engine's own is evaluated, and discarded or routed. -/
def State.evaluateMessage (s : State) (m : RxMessage) : State :=
  match m.error s.csu.address with
  | some k =>
    let s := s.setPbi (s.pbi.discard k)
    if k = .self then s.selfDiscard else s
  | none => s.countRxValid.route m

/-- R13, R14: a message ends: 11 idle bit times have followed it. The engine's own message is neither evaluated nor
counted. -/
def State.messageEnd (s : State) (m : RxMessage) : State :=
  if s.pbi.ownEnded then s.setPbi { s.pbi.endOwn with idle := 11 }
  else if s.pbi.rx = .receiving ∧ s.pbi.tx.isSending = false then
    (s.setPbi { s.pbi with rx := .idle, idle := 11 }).evaluateMessage m
  else s

end Sys2Proof.Machine
end

