-- ==== Sys2Proof/Machine/BusCommands.lean ====
section
/-!
DEFINITION. The meanings of the commands of the peer bus interface (Chapter 1), one definition per command.
-/
namespace Sys2Proof.Machine

/-- MESSAGE_END (R13 to R17). -/
def execMessageEnd (m : RxMessage) (s : State) : Host.Outcome State Fault Refusal := .next (s.messageEnd m)

/-- RX_BYTE_ERROR (R13). -/
def execRxByteError (s : State) : Host.Outcome State Fault Refusal := .next (s.setPbi (s.pbi.receiveError .byte))

/-- RX_LENGTH_ERROR (R13). -/
def execRxLengthError (s : State) : Host.Outcome State Fault Refusal := .next (s.setPbi (s.pbi.receiveError .length))

/-- RX_SHORT_ERROR (R13). -/
def execRxShortError (s : State) : Host.Outcome State Fault Refusal := .next (s.setPbi s.pbi.receiveShort)

/-- DISCARDING_END (R13). -/
def execDiscardingEnd (s : State) : Host.Outcome State Fault Refusal := .next (s.setPbi s.pbi.discardingEnd)

/-- TRANSMIT_START (R5). -/
def execTransmitStart (idle : Nat) (s : State) : Host.Outcome State Fault Refusal := .next (s.setPbi (s.pbi.transmitStart idle))

/-- TRANSMISSION_COMPLETE (R6). -/
def execTransmissionComplete (s : State) : Host.Outcome State Fault Refusal := .next (s.setPbi s.pbi.complete)

/-- COLLISION (R7). -/
def execCollision (s : State) : Host.Outcome State Fault Refusal := .next (s.setPbi (s.pbi.collision s.csu.address))

/-- BACKOFF_END (R8). -/
def execBackoffEnd (idle : Nat) (s : State) : Host.Outcome State Fault Refusal := .next (s.setPbi (s.pbi.backoffEnd idle))

/-- MESSAGE_BEGIN (R13). -/
def execMessageBegin (s : State) : Host.Outcome State Fault Refusal := .next (s.setPbi (s.pbi.character true))

/-- NON_START_CHARACTER (R13). -/
def execNonStartCharacter (s : State) : Host.Outcome State Fault Refusal := .next (s.setPbi (s.pbi.character false))

end Sys2Proof.Machine
end

