-- ==== Sys2Proof/Machine/PeerCommands.lean ====
section
/-!
DEFINITION. The meanings of the commands of the peer view unit (Chapter 2), one definition per command. A count named by a
command is taken as having run out; a command whose event the state does not allow has no effect (log entry 2).
-/
namespace Sys2Proof.Machine

/-- DEMAND (R24). -/
def execDemand (src : Byte) (epoch : Half) (amount weight : Byte) (s : State) : Host.Outcome State Fault Refusal :=
  .next (s.takeDemand src epoch amount weight)

/-- SPAN CLAIM (R25, R74). -/
def execSpanClaim (src : Byte) (epoch : Half) (start len : Byte) (s : State) : Host.Outcome State Fault Refusal :=
  .next (s.takeSpan src epoch start len)

/-- LOAD (R26). -/
def execLoad (src : Byte) (epoch eWant sWant fWant present : Half) (tier : Byte) (s : State) :
    Host.Outcome State Fault Refusal :=
  .next (s.takeLoad src epoch eWant sWant fWant present tier)

/-- CLAIM (R30, R35, R36). -/
def execClaim (src resource : Byte) (stamp : Half) (s : State) : Host.Outcome State Fault Refusal :=
  .next (s.takeClaim src resource stamp)

/-- HOLD (R30, R35, R37). -/
def execHold (src resource : Byte) (stamp : Half) (s : State) : Host.Outcome State Fault Refusal :=
  .next (s.takeHold src resource stamp)

/-- RELEASE (R31). -/
def execRelease (src resource : Byte) (s : State) : Host.Outcome State Fault Refusal := .next (s.takeRelease src resource)

/-- VIEW_ENTRY_EXPIRY (R32): only an entry whose holder is a peer expires. -/
def execViewEntryExpiry (r : ResourceNo) (s : State) : Host.Outcome State Fault Refusal :=
  .next (if (s.claimOf r).holder ≠ none ∧ (s.claimOf r).own ≠ .held then s.expireView r else s)

/-- SETTLE_END (R35). -/
def execSettleEnd (r : ResourceNo) (s : State) : Host.Outcome State Fault Refusal := .next (s.doSettleEnd r).settleEvent

/-- HOLD_REFRESH (R36). -/
def execHoldRefresh (r : ResourceNo) (s : State) : Host.Outcome State Fault Refusal :=
  .next (if (s.claimOf r).own = .held then s.offerHold r else s)

/-- CLAIM_LAPSE (R38). -/
def execClaimLapse (b : BinderNo) (s : State) : Host.Outcome State Fault Refusal := .next (s.doLapse (binderResource b))

/-- HOLD_OFF_END (R38). -/
def execHoldOffEnd (b : BinderNo) (s : State) : Host.Outcome State Fault Refusal :=
  .next (if (s.claimOf (binderResource b)).holdOff ≠ none then s.endHoldOff (binderResource b) else s)

end Sys2Proof.Machine
end

