-- ==== Sys2Proof/Machine/PortCommands.lean ====
section
/-!
DEFINITION. The meanings of the commands of the port queues, the port controller and the line events (Chapters 6 to 8), one
definition per command.
-/
namespace Sys2Proof.Machine

/-- PACKET_ARRIVAL (R97). -/
def execPacketArrival (p : PortNo) (data : List Byte) (s : State) : Host.Outcome State Fault Refusal := .next (s.arrive p data)

/-- DRAIN_END (R101, R102, R114). -/
def execDrainEnd (p : PortNo) (s : State) : Host.Outcome State Fault Refusal := .next (s.doDrainEnd p).settleEvent

/-- LINK_INDICATION (R110, R122, R124). -/
def execLinkIndication (p : PortNo) (up : Bool) (s : State) : Host.Outcome State Fault Refusal :=
  .next (s.linkIndication p up).settleEvent

/-- R131, R132, R155: what a rise of FVD does apart from the cell: the exit count, the MFE's source and, for a fitted
port in RUN and CONFLICT, the isolation. -/
def State.fvdRise (s : State) (p : PortNo) : State :=
  let s := (s.clearExit p).enforceSource
  if s.fitted p = true ∧ s.csu.state ≠ .unconfigured then s.doIsolate p else s

/-- R122, R124, R131: the FVD level of port p becomes `level`. The isolation comes first, with the reaction of the test on
the port and the selection that may follow (R144), and then the cell's own edge (log entry 41). -/
def State.fvdEdge (s : State) (p : PortNo) (level : Bool) : State :=
  let s := s.setLine p { s.line p with fvdLevel := level }
  let s := if level then (s.fvdRise p).settleEvent else s
  (s.cellEdge p .fvd level).settleEvent

/-- FVD_EDGE (R122, R124, R131, R132, R156). An output that does not change is no edge. -/
def execFvdEdge (p : PortNo) (peaks : LinePeaks) (s : State) : Host.Outcome State Fault Refusal :=
  let level := fvdOutput (s.line p).fvdLevel peaks
  .next (if (s.line p).fvdLevel = level then s else s.fvdEdge p level)

/-- R122, R124: the GFLT level of port p becomes `level`. -/
def State.gfltEdge (s : State) (p : PortNo) (level : Bool) : State :=
  ((s.setLine p { s.line p with gfltLevel := level }).cellEdge p .gflt level).settleEvent

/-- GFLT_EDGE (R122, R124, R156). An output that does not change is no edge. -/
def execGfltEdge (p : PortNo) (sensed : WireResistances) (s : State) : Host.Outcome State Fault Refusal :=
  let level := gfltOutput (s.line p).gfltLevel sensed
  .next (if (s.line p).gfltLevel = level then s else s.gfltEdge p level)

/-- ISOLATION_EXIT (R120, R132). -/
def execIsolationExit (p : PortNo) (s : State) : Host.Outcome State Fault Refusal :=
  .next (if (s.line p).fvdLevel then s else (s.unisolate p).settleEvent)

end Sys2Proof.Machine
end

