-- ==== Sys2Proof/Machine/PowerCommands.lean ====
section
/-!
DEFINITION. The meanings of the commands of the power manager (Chapter 11), one definition per command.
-/
namespace Sys2Proof.Machine

/-- MAINS_FALL (R166, R169). A level that is low already gives no edge. -/
def execMainsFall (s : State) : Host.Outcome State Fault Refusal :=
  .next (if s.pmg.pin then s.fall.afterFall.settleEvent else s)

/-- MAINS_RISE (R166). A level that is high already gives no edge. -/
def execMainsRise (s : State) : Host.Outcome State Fault Refusal := .next (if s.pmg.pin then s else s.rise)

/-- POWER_EPOCH_START (R167, R168, R172). -/
def execPowerEpochStart (s : State) : Host.Outcome State Fault Refusal :=
  .next (if s.powerEpochDue then s.startPowerEpoch.settleEvent else s)

/-- POWER_EVALUATION (R173, R174). -/
def execPowerEvaluation (s : State) : Host.Outcome State Fault Refusal :=
  .next (if s.evaluationDue then s.evaluate.settleEvent else s)

end Sys2Proof.Machine
end

