-- ==== Sys2Proof/Machine/StationCommands.lean ====
section
/-!
DEFINITION. The meanings of the commands of the configuration and status unit (Chapters 8 and 12), one definition per command.
-/
namespace Sys2Proof.Machine

/-- POWER_ON_RESET (R178). -/
def execPowerOnReset (strap : BitVec 4) (fvd gflt : BitVec 12) (mains : Bool) (s : State) :
    Host.Outcome State Fault Refusal :=
  .next (s.powerOn strap fvd gflt mains)

/-- CONFIGURE ENGINE (R179, R180). -/
def execConfigureEngine (src : Byte) (tag : Half) (fields : EngineFields) (s : State) :
    Host.Outcome State Fault Refusal :=
  .next (s.fromStationDo src (s.configureEngine src tag fields))

/-- CONFIGURE PORT (R179, R180). -/
def execConfigurePort (src : Byte) (tag : Half) (fields : PortFields) (s : State) : Host.Outcome State Fault Refusal :=
  .next (s.fromStationDo src (s.configurePort src tag fields))

/-- RESTART (R182). -/
def execRestart (src : Byte) (tag : Half) (s : State) : Host.Outcome State Fault Refusal :=
  .next (s.fromStationDo src (s.restart src tag))

/-- CLEAR EVENTS (R127). -/
def execClearEvents (src : Byte) (tag : Half) (report : Byte) (pairs : List (Byte × Byte)) (s : State) :
    Host.Outcome State Fault Refusal :=
  .next (s.fromStationDo src (s.clearEvents src tag report pairs))

/-- STATUS QUERY for ENGINE (R20, R183). -/
def execStatusQueryEngine (src : Byte) (tag : Half) (clear : Byte) (s : State) : Host.Outcome State Fault Refusal :=
  .next (s.fromStationDo src (s.queryEngine src tag clear))

/-- STATUS QUERY for PORT (R106, R183). -/
def execStatusQueryPort (src : Byte) (tag : Half) (index clear : Byte) (s : State) :
    Host.Outcome State Fault Refusal :=
  .next (s.fromStationDo src (s.queryPort src tag index clear))

/-- STATUS QUERY for EVENTS (R126, R183). -/
def execStatusQueryEvents (src : Byte) (tag : Half) (s : State) : Host.Outcome State Fault Refusal :=
  .next (s.fromStationDo src (s.queryEvents src tag))

/-- STATUS QUERY for TESTS (R153, R183). -/
def execStatusQueryTests (src : Byte) (tag : Half) (s : State) : Host.Outcome State Fault Refusal :=
  .next (s.fromStationDo src (s.queryTests src tag))

/-- STATUS QUERY for LOG (R153, R183). -/
def execStatusQueryLog (src : Byte) (tag : Half) (index : Byte) (s : State) : Host.Outcome State Fault Refusal :=
  .next (s.fromStationDo src (s.queryLog src tag index))

/-- STATUS QUERY for CLAIMS (R28, R183). -/
def execStatusQueryClaims (src : Byte) (tag : Half) (s : State) : Host.Outcome State Fault Refusal :=
  .next (s.fromStationDo src (s.queryClaims src tag))

/-- STATUS QUERY for PEER (R23, R183). -/
def execStatusQueryPeer (src : Byte) (tag : Half) (index : Byte) (s : State) : Host.Outcome State Fault Refusal :=
  .next (s.fromStationDo src (s.queryPeer src tag index))

/-- STATUS QUERY with a selector code that names none of the seven (R183). A code below 7 names one: no effect (log
entry 2). -/
def execStatusQueryUnknownSelector (src : Byte) (tag : Half) (selector : Byte) (s : State) :
    Host.Outcome State Fault Refusal :=
  .next (if 7 ≤ selector.toNat then s.fromStationDo src (s.queryUnknown src tag) else s)

end Sys2Proof.Machine
end

