-- ==== Sys2Proof/Machine/TestCommands.lean ====
section
/-!
DEFINITION. The meanings of the commands of the test sequencer and the measurement front end (Chapters 9 and 10), one
definition per command.
-/
namespace Sys2Proof.Machine

/-- TEST ORDER (R135, R136). -/
def execTestOrder (src : Byte) (tag : Half) (port kind priority : Byte) (holdTime : Half) (s : State) :
    Host.Outcome State Fault Refusal :=
  .next (s.fromStationDo src (s.testOrder src tag port kind priority holdTime))

/-- TEST CANCEL (R151). -/
def execTestCancel (src : Byte) (tag : Half) (s : State) : Host.Outcome State Fault Refusal :=
  .next (s.fromStationDo src (s.testCancel src tag))

/-- TEST_START (R138, R139): selection with an empty slot chooses the queue head. -/
def execTestStart (s : State) : Host.Outcome State Fault Refusal :=
  match s.tsq.running, s.selection? with
  | none, some (.start e) => .next (s.startTest e).settleEvent
  | _, _ => .next s

/-- TEST_RESUME (R138, R147): selection with an empty slot chooses the top of the stack. -/
def execTestResume (s : State) : Host.Outcome State Fault Refusal :=
  match s.tsq.running, s.selection? with
  | none, some (.resume c) => .next (s.resumeTest c).settleEvent
  | _, _ => .next s

/-- CLAIM_WAIT_TIMEOUT (R140). -/
def execClaimWaitTimeout (s : State) : Host.Outcome State Fault Refusal := .next s.endClaimWait.settleEvent

/-- CALIBRATION_ATTEMPT_END (R158, R159). -/
def execCalibrationAttemptEnd (main check : Samples) (s : State) : Host.Outcome State Fault Refusal :=
  .next (s.endCalibration main check).settleEvent

/-- STEP_SETTLE_END (R143). -/
def execStepSettleEnd (s : State) : Host.Outcome State Fault Refusal := .next s.endStepSettle

/-- DISCHARGE_END (R163). -/
def execDischargeEnd (s : State) : Host.Outcome State Fault Refusal :=
  .next (if s.mfe.charge = .discharging then s.setMfe { s.mfe with charge := .charging } else s)

/-- CHARGE_TIMER_STOP (R163). -/
def execChargeTimerStop (count : Nat) (s : State) : Host.Outcome State Fault Refusal :=
  .next (if s.mfe.charge = .charging ∧ count ≤ 65535 then s.setMfe { s.mfe with charge := .stopped count } else s)

/-- STEP_COMPLETION (R143, R160 to R163). -/
def execStepCompletion (main check : Samples) (s : State) : Host.Outcome State Fault Refusal :=
  .next (s.completeStep main check).settleEvent

/-- ACCESS_HOLD_END (R145). -/
def execAccessHoldEnd (s : State) : Host.Outcome State Fault Refusal := .next s.endAccessHold.settleEvent

end Sys2Proof.Machine
end

