-- ==== Sys2Proof/Machine/UplinkCommands.lean ====
section
/-!
DEFINITION. The meanings of the completions of the allocation unit and of the commands of the uplink scheduler (Chapters 3 to
5), one definition per command.
-/
namespace Sys2Proof.Machine

/-- PORT_DIVISION_COMPLETION (R51, R53, R81). -/
def execPortDivisionCompletion (s : State) : Host.Outcome State Fault Refusal :=
  match s.inFlightOf .portDivision with
  | some q => .next (s.takeDivision q).nextAu.settleEvent
  | none => .next s

/-- STATION_SHARE_COMPLETION (R51, R53, R73). -/
def execStationShareCompletion (s : State) : Host.Outcome State Fault Refusal :=
  match s.inFlightOf .stationShare with
  | some q => .next (s.takeStationShare q).nextAu
  | none => .next s

/-- POWER_SHARE_COMPLETION (R51, R53, R174). -/
def execPowerShareCompletion (s : State) : Host.Outcome State Fault Refusal :=
  match s.inFlightOf .powerShare with
  | some q => .next (s.takePowerShare q).nextAu.settleEvent
  | none => .next s

/-- FRAME_MARKER (R58, R61 to R66, R80, R88). -/
def execFrameMarker (number : Half) (status : Vector Byte 32) (check : Half) (elapsed : Nat) (readings : Readings)
    (s : State) : Host.Outcome State Fault Refusal :=
  .next (s.marker number status check elapsed readings)

/-- FRAME_TIMER_EXPIRY (R61, R64, R65). -/
def execFrameTimerExpiry (readings : Readings) (s : State) : Host.Outcome State Fault Refusal := .next (s.timerExpiry readings)

/-- SYNC_LOST (R67). -/
def execSyncLost (s : State) : Host.Outcome State Fault Refusal :=
  .next (s.setUls { s.uls with miss := if s.uls.sync.following then 3 else s.uls.miss }).loseSync

/-- EPOCH_START (R69). -/
def execEpochStart (s : State) : Host.Outcome State Fault Refusal := .next (if s.epochDue then s.startEpoch else s)

/-- SHARE_CUT (R72). -/
def execShareCut (s : State) : Host.Outcome State Fault Refusal := .next (if s.cutDue then s.cut else s)

/-- DOWNSTREAM_SEGMENT (R59, R105). -/
def execDownstreamSegment (station port len : Byte) (payload : List Byte) (check : Half) (s : State) :
    Host.Outcome State Fault Refusal :=
  .next (s.downstream station port len payload check)

end Sys2Proof.Machine
end

