-- ==== Sys2Proof/Machine/Dispatch.lean ====
section
/-!
DEFINITION. One arm per command: the meaning of each.
-/
namespace Sys2Proof.Machine

/-- The effect of a command on everything but the queue of waiting commands. -/
def exec (i : Instr) (s : State) : Host.Outcome State Fault Refusal :=
  match i with
  | .powerOnReset strap fvd gflt mains => Sys2Proof.Machine.execPowerOnReset strap fvd gflt mains s
  | .messageEnd m => Sys2Proof.Machine.execMessageEnd m s
  | .rxByteError => Sys2Proof.Machine.execRxByteError s
  | .rxLengthError => Sys2Proof.Machine.execRxLengthError s
  | .rxShortError => Sys2Proof.Machine.execRxShortError s
  | .discardingEnd => Sys2Proof.Machine.execDiscardingEnd s
  | .transmitStart idle => Sys2Proof.Machine.execTransmitStart idle s
  | .transmissionComplete => Sys2Proof.Machine.execTransmissionComplete s
  | .collision => Sys2Proof.Machine.execCollision s
  | .backoffEnd idle => Sys2Proof.Machine.execBackoffEnd idle s
  | .demand src epoch amount weight => Sys2Proof.Machine.execDemand src epoch amount weight s
  | .spanClaim src epoch start len => Sys2Proof.Machine.execSpanClaim src epoch start len s
  | .load src epoch eWant sWant fWant present tier => Sys2Proof.Machine.execLoad src epoch eWant sWant fWant present tier s
  | .claim src resource stamp => Sys2Proof.Machine.execClaim src resource stamp s
  | .hold src resource stamp => Sys2Proof.Machine.execHold src resource stamp s
  | .release src resource => Sys2Proof.Machine.execRelease src resource s
  | .viewEntryExpiry r => Sys2Proof.Machine.execViewEntryExpiry r s
  | .settleEnd r => Sys2Proof.Machine.execSettleEnd r s
  | .holdRefresh r => Sys2Proof.Machine.execHoldRefresh r s
  | .claimLapse b => Sys2Proof.Machine.execClaimLapse b s
  | .holdOffEnd b => Sys2Proof.Machine.execHoldOffEnd b s
  | .portDivisionCompletion => Sys2Proof.Machine.execPortDivisionCompletion s
  | .stationShareCompletion => Sys2Proof.Machine.execStationShareCompletion s
  | .powerShareCompletion => Sys2Proof.Machine.execPowerShareCompletion s
  | .frameMarker number status check elapsed readings => Sys2Proof.Machine.execFrameMarker number status check elapsed readings s
  | .frameTimerExpiry readings => Sys2Proof.Machine.execFrameTimerExpiry readings s
  | .syncLost => Sys2Proof.Machine.execSyncLost s
  | .epochStart => Sys2Proof.Machine.execEpochStart s
  | .shareCut => Sys2Proof.Machine.execShareCut s
  | .downstreamSegment station port len payload check => Sys2Proof.Machine.execDownstreamSegment station port len payload check s
  | .packetArrival p data => Sys2Proof.Machine.execPacketArrival p data s
  | .drainEnd p => Sys2Proof.Machine.execDrainEnd p s
  | .linkIndication p up => Sys2Proof.Machine.execLinkIndication p up s
  | .fvdEdge p peaks => Sys2Proof.Machine.execFvdEdge p peaks s
  | .gfltEdge p sensed => Sys2Proof.Machine.execGfltEdge p sensed s
  | .isolationExit p => Sys2Proof.Machine.execIsolationExit p s
  | .testOrder src tag port kind priority holdTime => Sys2Proof.Machine.execTestOrder src tag port kind priority holdTime s
  | .testCancel src tag => Sys2Proof.Machine.execTestCancel src tag s
  | .testStart => Sys2Proof.Machine.execTestStart s
  | .testResume => Sys2Proof.Machine.execTestResume s
  | .claimWaitTimeout => Sys2Proof.Machine.execClaimWaitTimeout s
  | .calibrationAttemptEnd main check => Sys2Proof.Machine.execCalibrationAttemptEnd main check s
  | .stepSettleEnd => Sys2Proof.Machine.execStepSettleEnd s
  | .dischargeEnd => Sys2Proof.Machine.execDischargeEnd s
  | .chargeTimerStop count => Sys2Proof.Machine.execChargeTimerStop count s
  | .stepCompletion main check => Sys2Proof.Machine.execStepCompletion main check s
  | .accessHoldEnd => Sys2Proof.Machine.execAccessHoldEnd s
  | .mainsFall => Sys2Proof.Machine.execMainsFall s
  | .mainsRise => Sys2Proof.Machine.execMainsRise s
  | .powerEpochStart => Sys2Proof.Machine.execPowerEpochStart s
  | .powerEvaluation => Sys2Proof.Machine.execPowerEvaluation s
  | .configureEngine src tag fields => Sys2Proof.Machine.execConfigureEngine src tag fields s
  | .configurePort src tag fields => Sys2Proof.Machine.execConfigurePort src tag fields s
  | .restart src tag => Sys2Proof.Machine.execRestart src tag s
  | .clearEvents src tag report pairs => Sys2Proof.Machine.execClearEvents src tag report pairs s
  | .statusQueryEngine src tag clear => Sys2Proof.Machine.execStatusQueryEngine src tag clear s
  | .statusQueryPort src tag index clear => Sys2Proof.Machine.execStatusQueryPort src tag index clear s
  | .statusQueryEvents src tag => Sys2Proof.Machine.execStatusQueryEvents src tag s
  | .statusQueryTests src tag => Sys2Proof.Machine.execStatusQueryTests src tag s
  | .statusQueryLog src tag index => Sys2Proof.Machine.execStatusQueryLog src tag index s
  | .statusQueryClaims src tag => Sys2Proof.Machine.execStatusQueryClaims src tag s
  | .statusQueryPeer src tag index => Sys2Proof.Machine.execStatusQueryPeer src tag index s
  | .messageBegin => Sys2Proof.Machine.execMessageBegin s
  | .nonStartCharacter => Sys2Proof.Machine.execNonStartCharacter s
  | .statusQueryUnknownSelector src tag selector => Sys2Proof.Machine.execStatusQueryUnknownSelector src tag selector s

end Sys2Proof.Machine
end

