-- ==== Sys2Proof/Safety.lean ====
section
/-!
DEFINITION. What a safe state is, in the terms the statements use: the buffers all accounted for (R95, R96), lists within
their limits, port records and relays consistent (R108 to R112), and the source and the access bus on only where the
spec allows it (R112, R155), and the lists and views that the rules keep in order.
-/
namespace Sys2Proof.Machine

/-! ### Buffers -/

/-- R96: a packet record: at least one and at most its total of segments remain, 24 in all, each with its buffer. -/
def PacketRecord.ok (r : PacketRecord) : Bool :=
  decide (1 ≤ r.remaining ∧ r.remaining ≤ r.total ∧ r.total ≤ 24 ∧ r.buffers.length = r.remaining)

/-- R95: the buffers that segments hold: queued, in flight and in the retransmit list. -/
def State.buffersHeld (s : State) : Nat :=
  (allPorts.map s.queued).sum + s.uls.inFlight.length + s.uls.retransmit.length

/-- R95, R96: every one of the 512 buffers is free or held by one segment, and the packet records are in order. -/
def State.poolOk (s : State) : Bool :=
  decide (s.pqm.free + s.buffersHeld = 512) && allPorts.all fun p => (s.pq p).queue.all PacketRecord.ok

/-! ### Limits -/

/-- The limits of the lists: transmit queue 8 (R9), test queue 16 (R134), context stack 3 (R146), result log 16
(R153). -/
def State.withinLimits (s : State) : Bool :=
  decide (s.pbi.queue.length ≤ txCapacity) && decide (s.tsq.queue.length ≤ queueCapacity) &&
    decide (s.tsq.stack.length ≤ stackCapacity) && decide (s.tsq.log.length ≤ logCapacity)

/-! ### Port records and relays -/

/-- R108 to R112: one port record. The transceiver relay is closed exactly while the port is IN SERVICE or DRAINING;
the front-end and access-bus relays only in IN TEST, and never both; the link is up only while the port serves; a take
waits only in DRAINING for SHED; a shed is pending only in DRAINING for TEST and in IN TEST without an isolation; a return
state is present in ISOLATED, and otherwise only in IN TEST. -/
def PortRecord.ok (r : PortRecord) : Bool :=
  (r.relayTransceiver == r.state.serving) &&
    (!r.relayFrontEnd || decide (r.state = .inTest)) && (!r.relayAccess || decide (r.state = .inTest)) &&
    !(r.relayFrontEnd && r.relayAccess) && (!r.link || r.state.serving) &&
    (!r.takeWaiting || decide (r.state = .draining .shed)) &&
    (!r.shedPending || ((decide (r.state = .draining .test) || decide (r.state = .inTest)) && r.returnState.isNone)) &&
    (decide (r.state ≠ .isolated) || r.returnState.isSome) &&
    (r.returnState.isNone || decide (r.state = .isolated) || decide (r.state = .inTest))

/-- R111, R112, R154: at most one port is connected to the front end, and it is the MFE's connected port; at most one
is connected to the access bus. -/
def State.relaysOk (s : State) : Bool :=
  (allPorts.all fun p => (s.port p).relayFrontEnd == decide (s.mfe.connected = some p)) &&
    allPorts.all fun p => allPorts.all fun q =>
      !(s.port p).relayAccess || !(s.port q).relayAccess || decide (p = q)

/-- R108, R121: in UNCONFIGURED every port is UNFITTED. -/
def State.unfittedOk (s : State) : Bool :=
  decide (s.csu.state ≠ .unconfigured) || allPorts.all fun p => decide ((s.port p).state = .unfitted)

/-- R108 to R112, R121: the port records and the relays of all twelve ports. -/
def State.portsOk (s : State) : Bool :=
  (allPorts.all fun p => (s.port p).ok) && s.relaysOk && s.unfittedOk

/-! ### The source and the access bus -/

/-- R155: the source is on only while the connected port is IN TEST, its FVD condition false, the tier at most 2 and
the port's binder HELD. -/
def State.sourceOk (s : State) : Bool := decide (s.mfe.source = .off) || s.sourceAllowed

/-- R112: a port is on the access bus only while it is IN TEST without an isolation and ACCESS and its binder are
HELD. -/
def State.accessOk (s : State) : Bool := allPorts.all fun p => !(s.port p).relayAccess || s.accessAllowed p

/-- R109 to R112, R155: nothing drives a pair or the access bus except where the spec allows it. -/
def State.lineSafe (s : State) : Bool := s.portsOk && s.sourceOk && s.accessOk

/-! ### The transmit queue -/

/-- R6, R9, R10: the entries stand in enqueue order, below the next order, with attempt numbers 1 to 8, at most 8 of
them; the transmitter is in IDLE only with an empty queue, in WAITING GAP only with an entry to send, and the entry
that SENDING or BACKOFF names is in the queue. -/
def Pbi.ok (b : Pbi) : Bool :=
  decide (b.queue.Pairwise fun x y => x.order < y.order) &&
    (b.queue.all fun e => decide (e.order < b.nextOrder ∧ 1 ≤ e.attempt ∧ e.attempt ≤ 8)) &&
    decide (b.queue.length ≤ txCapacity) &&
    match b.tx with
    | .idle => b.queue.isEmpty
    | .waitingGap => !b.queue.isEmpty
    | .sending o => b.queue.any fun e => decide (e.order = o)
    | .backoff o _ => b.queue.any fun e => decide (e.order = o)

/-! ### Claims -/

/-- R28: the holder is the engine's own address exactly when the own state is HELD, and the stamp is then the own
stamp. -/
def ClaimEntry.ok (c : ClaimEntry) (address : Nat) : Bool :=
  decide (c.own = .held ↔ c.holder = some address) && (decide (c.own ≠ .held) || decide (c.stamp = c.ownStamp))

/-- R28: every claim-view entry agrees with the engine's own part in claiming the resource. -/
def State.claimsOk (s : State) : Bool := allResources.all fun r => (s.claimOf r).ok s.csu.address

/-! ### Peers and coverage -/

/-- R23, R25, R27: an entry of the peer table: a station address 1 to 16 other than the engine's own, at most two span
records of two epochs, and a part that still keeps it in the table. -/
def PeerEntry.ok (e : PeerEntry) (address : Nat) : Bool :=
  decide (1 ≤ e.address ∧ e.address ≤ 16 ∧ e.address ≠ address ∧ e.spans.length ≤ 2) &&
    decide (e.spans.Pairwise fun a b => a.epoch ≠ b.epoch) && !e.gone

/-- R23: the peer table is ordered by address, one entry for each address; the engine's own address is 1 to 16. -/
def State.peersOk (s : State) : Bool :=
  decide (1 ≤ s.csu.address ∧ s.csu.address ≤ 16) &&
    decide (s.pvu.peers.Pairwise fun a b => a.address < b.address) && s.pvu.peers.all fun e => e.ok s.csu.address

/-- R74: the number of peers with a lower address whose span record for the current share epoch covers slot k. -/
def State.coverersOf (s : State) (k : Nat) : Nat :=
  (s.pvu.peers.filter fun e =>
    decide (e.address < s.csu.address) && e.spans.any fun r => r.current s.uls.f && r.covers k).length

/-- R69, R74: the 128 coverage counts are those numbers, and the epoch of the last epoch start is F div 8. -/
def State.coverageOk (s : State) : Bool :=
  s.peersOk && decide (s.uls.shareEpoch = shareEpochOf s.uls.f) &&
    decide (s.uls.coverage = (List.range 128).map s.coverersOf)

/-! ### The lane's lists -/

/-- R82, R87, R92: slots strictly ascending within 0 to 127. -/
def slotsOk (l : List Nat) : Bool := decide (l.Pairwise (· < ·)) && l.all fun k => decide (k < 128)

/-- R82, R85, R87, R92: the in-flight list and the grant map stand in ascending slot order, no slot twice; in-flight
attempts are 1 to 3 and of one frame; retransmit attempts are 1 or 2; the granted-slots count is no less than the map;
and while a division is outstanding the in-flight list and the map are empty and its usable list is in slot order. -/
def State.laneOk (s : State) : Bool :=
  let u := s.uls
  slotsOk (u.inFlight.map InFlightEntry.slot) && slotsOk (u.grantMap.map Prod.fst) &&
    (u.inFlight.all fun e => decide (1 ≤ e.attempt ∧ e.attempt ≤ 3)) &&
    (u.inFlight.all fun e => u.inFlight.all fun x => decide (e.frame = x.frame)) &&
    (u.retransmit.all fun e => decide (1 ≤ e.attempt ∧ e.attempt ≤ 2)) &&
    decide (u.grantMap.length ≤ u.granted) &&
    (u.division.all fun d => u.inFlight.isEmpty && u.grantMap.isEmpty && slotsOk d.usable)

/-! ### Tests and their ports -/

/-- The ports of the running test and of the suspended tests. -/
def State.testPorts (s : State) : List PortNo :=
  s.tsq.running.toList.map (fun t => t.entry.port) ++ s.tsq.stack.map fun c => c.test.entry.port

/-- R139: a port that a test has, or that its take waits for. -/
def PortRecord.belongs (r : PortRecord) : Bool :=
  match r.state with
  | .inTest => true
  | .draining .test => true
  | .draining .shed => r.takeWaiting
  | _ => false

/-- R138, R139: each test owns one port and no port belongs to two tests; the ports IN TEST, DRAINING for TEST, or
DRAINING for SHED with a take waiting are exactly the tests' ports; outside RUN there is no test (R41, R150). -/
def State.testsOwnPorts (s : State) : Bool :=
  decide s.testPorts.Nodup && (allPorts.all fun p => s.testPorts.contains p == (s.port p).belongs) &&
    (s.inRun || s.testPorts.isEmpty)

/-! ### Between commands -/

/-- No leave notice and no selection of an earlier command is left over (log entry 10). -/
def State.settled (s : State) : Bool := !s.leu.leaveDue && !s.tsq.selectDue

/-- No test is running, and nothing is left over. -/
def State.quiet (s : State) : Bool := s.settled && s.tsq.running.isNone

end Sys2Proof.Machine
end

