-- ==== Sys2Proof/Certificates/Slice0/Obligations.lean ====
section
/-!
DEFINITION. The statements for the provers. OBLIGATIONS.json lists them with the rules they formalise. A statement about
a command gives the state it answers, so everything it does not name is unchanged.
-/

open Sys2Proof Sys2Proof.Machine

/-! ### Terms the statements use -/

namespace Sys2Proof.Machine

/-- The receiver is collecting a message that another station drives (R13). -/
def State.receivingOther (s : State) : Prop :=
  s.pbi.rx = .receiving ∧ s.pbi.ownEnded = false ∧ s.pbi.tx.isSending = false

/-- After 11 idle bit times: the receiver is in IDLE (R13). -/
def State.atMessageEnd (s : State) : State := s.setPbi { s.pbi with rx := .idle, idle := 11 }

/-- At the end of a valid message, RX VALID increased (R17). -/
def State.atValidEnd (s : State) : State :=
  s.setPbi { s.pbi with rx := .idle, idle := 11, rxValid := satInc s.pbi.rxValid }

/-- At the end of a message discarded with this error kind (R14). -/
def State.atDiscard (s : State) (k : ErrorKind) : State :=
  s.setPbi { s.pbi with rx := .idle, idle := 11, rxDiscard := satInc s.pbi.rxDiscard, errors := s.pbi.errors.add k }

/-- The completion command of each kind of computation. -/
def AuKind.completion : AuKind → Instr
  | .portDivision => .portDivisionCompletion
  | .stationShare => .stationShareCompletion
  | .powerShare => .powerShareCompletion

/-- No cell waits for room or for the end of a test. -/
def State.noCellWaits (s : State) : Prop :=
  ∀ p c, (s.cell p c).request ≠ .waitRoom ∧ (s.cell p c).request ≠ .waitEnd

/-- The commands that hand a message to the CSU's configuration, or carry one that may be. -/
def isStationCommand : Instr → Bool
  | .powerOnReset _ _ _ _ => true
  | .messageEnd _ => true
  | .configureEngine _ _ _ => true
  | .configurePort _ _ _ => true
  | .restart _ _ => true
  | _ => false

/-- The resources that the engine has claimed on the bus: HELD or SETTLING, ascending (R41). -/
def State.claimed (s : State) : List ResourceNo :=
  allResources.filter fun r => decide ((s.claimOf r).own = .held ∨ (s.claimOf r).own = .settling)

/-- How far port x lies after the rotation pointer r, counting up and around: the port after r first, r itself last
(R83). -/
def portsAfter (r x : PortNo) : Nat := (x.val + 11 - r.val) % 12

/-- R83: where a port-division completion for these ports leaves the rotation pointer. -/
def rotatesTo (r : PortNo) (ids : List Nat) (x : PortNo) : Prop :=
  ((∀ p : PortNo, p.val ∉ ids) → x = r) ∧
    ((∃ p : PortNo, p.val ∈ ids) →
      x.val ∈ ids ∧ ∀ p : PortNo, p.val ∈ ids → portsAfter r x ≤ portsAfter r p)

/-- No port is being drained. -/
def State.noneDraining (s : State) : Prop := ∀ p, (s.port p).state.isDraining = false

/-- R90: the in-flight entries that a status list sends to the retransmit list, in slot order. -/
def State.returned (s : State) (status : Vector Byte 32) : List RetransmitEntry :=
  (s.uls.inFlight.filter fun e =>
    decide (slotStatus status e.slot ≠ .delivered ∧ e.attempt < 3 ∧ (s.port e.port).state ≠ .off ∧
      (s.port e.port).state ≠ .unfitted)).map fun e => ⟨e.port, e.packet, e.index, e.last, e.attempt, e.payload⟩

/-- How many in-flight entries of port p satisfy a test. -/
def State.flying (s : State) (p : PortNo) (f : InFlightEntry → Prop) [DecidablePred f] : Nat :=
  (s.uls.inFlight.filter fun e => decide (e.port = p ∧ f e)).length

/-- R93, R101, R107, R115, R121: the ports, the buffers and the counters after an entry to CONFLICT. A test's port is
returned, a drain for SHED that holds nothing any more has ended, and every other port is as it was. -/
def State.portsInConflict (s t : State) : Prop :=
  (∀ p, p ∉ s.testPorts →
    ((s.port p).state = .draining .shed → s.queued p = 0 → (t.port p).state = .off) ∧
    ((s.port p).state ≠ .draining .shed ∨ 1 ≤ s.queued p → t.port p = s.port p)) ∧
  (∀ p ∈ s.testPorts,
    let r := s.port p
    let is (st : PortState) (back : Option ReturnState) : Prop :=
      (t.port p).state = st ∧ (t.port p).returnState = back ∧ (t.port p).shedPending = false ∧
        (t.port p).takeWaiting = false ∧ (t.port p).relayFrontEnd = false ∧ (t.port p).relayAccess = false
    let leaves := r.shedPending = true ∨ s.pmg.tier = 4
    (r.state = .inTest → (s.line p).fvdLevel = true ∨ r.returnState ≠ none →
      is .isolated (some (r.returnState.getD (if leaves then .off else .inService)))) ∧
    (r.state = .inTest → (s.line p).fvdLevel = false → r.returnState = none →
      is (if leaves then .off else .inService) none) ∧
    (r.state = .draining .test → s.pmg.tier = 4 → is .off none) ∧
    (r.state = .draining .test → s.pmg.tier ≠ 4 →
      is (if r.shedPending = false then .inService else if s.queued p = 0 then .off else .draining .shed) none) ∧
    (r.state = .draining .shed → is (if s.queued p = 0 then .off else .draining .shed) none)) ∧
  (∀ p,
    let gone := (t.port p).state = .off ∧ (s.port p).state ≠ .off
    (t.pq p).queue = (if gone then [] else (s.pq p).queue) ∧
    (t.pq p).counters = { (s.pq p).counters with
      unconfirmed := satAdd (s.pq p).counters.unconfirmed (s.flying p fun _ => True)
      discarded := satAdd (s.pq p).counters.discarded (if gone then s.held p else s.retransmits p) }) ∧
  t.pqm.free + (allPorts.map t.queued).sum = s.pqm.free + s.buffersHeld

/-- R143: the steps of each kind's program, in order. -/
def TestKind.steps : TestKind → List (StepKind × Wires)
  | .fv => [(.voltage, .tg), (.voltage, .rg), (.voltage, .tr)]
  | .ir =>
    [(.voltage, .tg), (.voltage, .rg), (.voltage, .tr), (.selfCheck, .tr), (.resistance, .tg), (.resistance, .rg),
      (.resistance, .tr)]
  | .cap => [(.charge, .tr), (.charge, .tg), (.charge, .rg)]
  | .full =>
    [(.voltage, .tg), (.voltage, .rg), (.voltage, .tr), (.selfCheck, .tr), (.resistance, .tg), (.resistance, .rg),
      (.resistance, .tr), (.charge, .tr), (.charge, .tg), (.charge, .rg)]
  | .access => []

/-- R88 to R90: every in-flight entry has been handled by the status of its slot. -/
def State.statusTaken (s t : State) (status : Vector Byte 32) : Prop :=
  t.uls.retransmit = s.uls.retransmit ++ s.returned status ∧
    t.pqm.free = s.pqm.free + (s.uls.inFlight.length - (s.returned status).length) ∧
    ∀ p, (t.pq p).counters = { (s.pq p).counters with
      segmentLost := satAdd (s.pq p).counters.segmentLost
        (s.flying p fun e => slotStatus status e.slot ≠ .delivered ∧ 3 ≤ e.attempt)
      discarded := satAdd (s.pq p).counters.discarded
        (s.flying p fun e => slotStatus status e.slot ≠ .delivered ∧ e.attempt < 3 ∧
          ((s.port p).state = .off ∨ (s.port p).state = .unfitted)) }

/-- R91: every in-flight entry has been released as unconfirmed. -/
def State.releasedAll (s t : State) : Prop :=
  t.uls.retransmit = s.uls.retransmit ∧ t.pqm.free = s.pqm.free + s.uls.inFlight.length ∧
    ∀ p, (t.pq p).counters = { (s.pq p).counters with
      unconfirmed := satAdd (s.pq p).counters.unconfirmed (s.flying p fun _ => True) }

/-- R80, R85: the port division of frame f has been requested, from the eligible ports and the usable slots. -/
def State.asksDivision (s t : State) (f : Half) : Prop :=
  t.uls.granted = 0 ∧ ((∀ p, t.eligible p = false) → t.uls.division = none ∧ t.au = s.au) ∧
    ((∃ p, t.eligible p = true) → ∃ usable order q,
      t.uls.division = some ⟨f, usable, order⟩ ∧ t.au = s.au.request q ∧
      q.kind = .portDivision ∧ q.reference = f ∧ q.capacity = usable.length ∧ q.order = order.map Fin.val ∧
      q.requesters = (allPorts.filter t.eligible).map (fun p => ⟨p.val, min 16 (t.held p), (s.part p).weight⟩) ∧
      usable = (List.range 128).filter (fun k => decide (s.uls.coverage.getD k 0 = 0 ∧
        ∃ w ∈ s.uls.current.toList, w.start ≤ k ∧ k < w.start + w.len)) ∧
      (∀ p, p ∈ order ↔ t.eligible p = true) ∧
      order.Pairwise fun a b =>
        (a.val + 12 - s.uls.rotation.val) % 12 < (b.val + 12 - s.uls.rotation.val) % 12)

/-- A frame advance to f brings only counts: no claim, drain, isolation, re-arm or test count runs out, no share epoch,
power epoch, cut or evaluation is due, and no queued test can start. -/
def State.nothingDueAt (s : State) (f : Half) : Prop :=
  s.settled = true ∧
  (∀ r, ((s.claimOf r).own ≠ .held → (s.claimOf r).silence < 199) ∧
    ((s.claimOf r).own = .settling → 2 ≤ (s.claimOf r).settle) ∧
    ((s.claimOf r).own = .held → (s.claimOf r).refresh < 63 ∧ (s.claimOf r).unused < 31) ∧
    ∀ n, (s.claimOf r).holdOff = some n → 2 ≤ n) ∧
  s.uls.shareEpoch = f.toNat / 8 ∧ s.pmg.powerEpoch = f.toNat / 64 ∧
  (s.csu.state = .run → s.uls.lastCut = some (f.toNat / 8) ∨ f.toNat % 8 < 4) ∧
  (s.csu.state = .run → s.pmg.lastEvaluation = some (f.toNat / 64) ∨ f.toNat % 64 < 16) ∧
  (∀ p, ((s.port p).state.isDraining = true → 2 ≤ (s.pq p).drainCount) ∧ (s.line p).exit < 63 ∧
    ∀ c, (s.cell p c).mode.isLevel = true →
      (s.cell p c).priority = 0 ∨ (s.cell p c).rearm < 4095 ∨ s.cellPending p c = false) ∧
  (s.tsq.running = none → s.tsq.queue = [] ∧ s.tsq.stack = []) ∧
  (∀ x, s.tsq.running = some x →
    (∀ e ∈ s.tsq.queue, e.priority ≤ x.entry.priority) ∧ (x.phase = .claim → x.claimWait < 255) ∧
      (x.phase = .connected → 2 ≤ x.remainingHold) ∧
      (x.phase = .step → x.stage = .notBegun ∨ ∃ n, x.stage = .settling n ∧ 2 ≤ n)) ∧
  ∀ a n, s.mfe.activity = .calibrating a n → n < 3

/-- R42, R100, R130, R132, R140, R143, R145, R154, R158, R167: every block's counts have advanced by one frame, and nothing
else of these blocks has changed. -/
def State.countedTo (s t : State) (bus : Half) : Prop :=
  (∀ r, t.claimOf r = { s.claimOf r with
    silence := if (s.claimOf r).own ≠ .held ∧ (s.claimOf r).holder ≠ none then (s.claimOf r).silence + 1
      else (s.claimOf r).silence
    settle := if (s.claimOf r).own = .settling then (s.claimOf r).settle - 1 else (s.claimOf r).settle
    refresh := if (s.claimOf r).own = .held then (s.claimOf r).refresh + 1 else (s.claimOf r).refresh
    unused :=
      if r ≠ accessBus ∧ (s.claimOf r).own = .held ∧ (s.claimOf r).markedWaiting = true ∧
          (s.claimOf accessBus).own ≠ .settling then (s.claimOf r).unused + 1
      else (s.claimOf r).unused
    holdOff := (s.claimOf r).holdOff.map fun n => n - 1 }) ∧
  t.pvu.peers = s.pvu.peers ∧ t.pvu.accessWanted = s.pvu.accessWanted ∧ t.pbi = s.pbi ∧ t.ptc = s.ptc ∧
  (∀ p, t.pq p = { s.pq p with
    drainCount := if (s.port p).state.isDraining = true then (s.pq p).drainCount - 1 else (s.pq p).drainCount
    counters := (t.pq p).counters }) ∧
  t.leu.report = s.leu.report ∧
  (∀ p, (t.line p).fvdLevel = (s.line p).fvdLevel ∧ (t.line p).gfltLevel = (s.line p).gfltLevel ∧
    (t.line p).exit = (if (s.port p).state = .isolated ∧ (s.line p).fvdLevel = false then (s.line p).exit + 1
      else (s.line p).exit) ∧
    ∀ c, t.cell p c = { s.cell p c with
      rearm := if (s.cell p c).mode.isLevel = true then min 4096 ((s.cell p c).rearm + 1) else (s.cell p c).rearm }) ∧
  t.tsq = { s.tsq with running := s.tsq.running.map fun x => { x with
    claimWait := if x.phase = .claim then x.claimWait + 1 else x.claimWait
    remainingHold := if x.phase = .connected then x.remainingHold - 1 else x.remainingHold
    connected := if x.phase = .connected then x.connected + 1 else x.connected
    stage :=
      match x.stage with
      | .settling n => if x.phase = .step then .settling (n - 1) else .settling n
      | y => y } } ∧
  t.mfe = { s.mfe with
    age := min 1024 (s.mfe.age + 1)
    activity :=
      match s.mfe.activity with
      | .calibrating a n => .calibrating a (n + 1)
      | y => y } ∧
  t.pmg = { s.pmg with samples := (s.pmg.samples ++ [bus]).drop (s.pmg.samples.length + 1 - 64) }

/-- R152, R164, R165: the result record of a test that ends now with this cause. -/
def State.endRecord (s : State) (x : RunningTest) (cause : Option AbortCause) : ResultRecord :=
  { requester := x.entry.requester, tag := x.entry.tag, port := x.entry.port, kind := x.entry.kind, type := .result,
    verdict := verdictOf (testFailures s.engine x), fail := failSet (testFailures s.engine x),
    values := valuesList s.engine x, cause := cause, start := x.start, finish := s.uls.f }

/-- R153: the result log with one more record, which replaces the oldest of 16. -/
def State.logWith (s : State) (r : ResultRecord) : List (Half × ResultRecord) :=
  (if s.tsq.log.length < 16 then s.tsq.log else s.tsq.log.tail) ++ [(s.tsq.nextSeq, r)]

/-- A test has ended with this cause, and no other is there to follow it: its record is the newest of the log, its port is
given back, and no claim is left (R144, R152). -/
def State.testEnded (s t : State) (x : RunningTest) (cause : Option AbortCause) : Prop :=
  t.tsq.running = none ∧ t.tsq.queue = [] ∧ t.tsq.stack = [] ∧ t.tsq.nextSeq = s.tsq.nextSeq + 1 ∧
    t.tsq.log.getLast? = some (s.tsq.nextSeq, s.endRecord x cause) ∧
    (∀ r, (t.claimOf r).own = .none) ∧ t.pvu.accessWanted = false ∧ t.mfe.source = .off ∧
    (t.port x.entry.port).relayFrontEnd = false ∧ (t.port x.entry.port).relayAccess = false ∧
    (t.port x.entry.port).state ≠ .inTest

/-- The test x runs alone: nothing is queued or suspended, no cell waits, and its port's LINK cell asks for nothing when
the port serves again. -/
def State.runsAlone (s : State) (x : RunningTest) : Prop :=
  s.settled = true ∧ s.tsq.running = some x ∧ s.tsq.queue = [] ∧ s.tsq.stack = [] ∧ s.noCellWaits ∧
    (s.cell x.entry.port .link).mode.isLevel = false

/-- No resource is claimed or held by anyone. -/
def State.nothingClaimed (s : State) : Prop := ∀ r, (s.claimOf r).own = .none ∧ (s.claimOf r).holder = none

/-- R138: the queue entry is skipped. -/
def State.skips (s : State) (e : QueueEntry) : Prop :=
  3 ≤ s.pmg.tier.val ∨ ((s.port e.port).state = .isolated ∧ e.kind ≠ .fv) ∨ e.port ∈ s.testPorts

/-- R138: e is the queue head, the first entry that is not skipped; its port is in service and holds a segment, and no peer
holds its binder. -/
def State.headIs (s : State) (e : QueueEntry) : Prop :=
  (∃ before after, s.tsq.queue = before ++ e :: after ∧ (∀ y ∈ before, s.skips y) ∧ ¬ s.skips e) ∧
    (s.port e.port).state = .inService ∧ 1 ≤ s.held e.port ∧
    ((s.claimOf (s.binderOf e.port)).own ≠ .held → (s.claimOf (s.binderOf e.port)).holder = none)

/-- R146: the running test x has been suspended for the entry e, which runs and drains its port. The claims of x are given
up, except for a HELD binder that e needs, too. -/
def State.preempted (s t : State) (x : RunningTest) (e : QueueEntry) : Prop :=
  let b := s.binderOf x.entry.port
  let n := s.binderOf e.port
  let keeps := n = b ∧ (s.claimOf b).own = .held
  let starts (ph : Phase) : RunningTest :=
    ⟨e, ph, 1, [], .sent, 0, 0, if e.kind = .access then e.holdTime * 1024 else 0, 0, s.uls.f, .notBegun, false⟩
  t.tsq.stack = ⟨{ x with stage := .notBegun }, decide ((s.claimOf b).own = .held ∧
      (x.entry.kind = .access → (s.claimOf accessBus).own = .held))⟩ :: s.tsq.stack ∧
    t.tsq.queue = dropMade s.tsq.queue e.made ∧ t.tsq.log = s.tsq.log ∧ t.mfe.source = .off ∧
    (t.port x.entry.port).state = (s.port x.entry.port).state ∧ (t.port x.entry.port).relayFrontEnd = false ∧
    (t.port x.entry.port).relayAccess = false ∧ (t.port e.port).state = .draining .test ∧
    (t.pq e.port).drainCount = 16 ∧
    (keeps → (t.claimOf b).own = .held ∧ (e.kind ≠ .access → t.tsq.running = some (starts .drain))) ∧
    (¬ keeps → (s.claimOf n).own ≠ .held → (t.claimOf n).own = .settling ∧ (t.claimOf n).ownStamp = s.uls.f ∧
      t.tsq.running = some (starts .claim) ∧ (n ≠ b → (t.claimOf b).own = .none))

/-! #### Cells and their requests -/

/-- R128, R137: the entry that the cell of port p and condition c asks for. -/
def State.cellEntry (s : State) (p : PortNo) (c : Condition) : QueueEntry :=
  { requester := 0, tag := 0, port := p
    kind := match c with
      | .link => .full
      | .fvd => .fv
      | .gflt => .ir
    priority := (s.cell p c).priority, holdTime := 0, arrival := s.uls.f, origin := .cell p c, made := s.tsq.nextMade }

/-- R134, R138: that entry joins the queue, and the TSQ is to select. -/
def State.queuesCell (s : State) (p : PortNo) (c : Condition) : State :=
  s.setTsq { s.tsq with
    queue := insertEntry (s.cellEntry p c) s.tsq.queue, nextMade := s.tsq.nextMade + 1, selectDue := true }

/-- R137: the answer to the automatic request of that cell, the first that holds. -/
def State.answerTo (s : State) (p : PortNo) (c : Condition) : AutoAnswer :=
  let n := s.cellEntry p c
  let same (e : QueueEntry) : Prop := e.port = p ∧ e.kind = n.kind
  if s.mfe.failed = true then .refused
  else if (∃ x ∈ s.tsq.running, same x.entry) ∨ ∃ x ∈ s.tsq.stack, same x.test.entry then .active
  else if ∃ e ∈ s.tsq.queue, same e then .present
  else if s.tsq.queue.length < 16 ∨ ∃ e ∈ s.tsq.queue, e.requester = 0 ∧ e.priority < n.priority then .queued
  else .full

/-- R129, R137: of the automatic entries of lower priority the last in queue order has left a full queue for the cell's
entry, its own cell waits for room if it was QUEUED, and a leave notice is due. -/
def State.displaces (s t : State) (p : PortNo) (c : Condition) : Prop :=
  let n := s.cellEntry p c
  ∀ before e after, s.tsq.queue = before ++ e :: after → e.requester = 0 → e.priority < n.priority →
    (∀ y ∈ after, y.requester = 0 → n.priority ≤ y.priority) →
    t.tsq = { s.tsq with
      queue := insertEntry n (dropMade s.tsq.queue e.made), nextMade := s.tsq.nextMade + 1, selectDue := true } ∧
    t.leu.leaveDue = true ∧
    ∀ d, e.kind.condition? = some d → ¬ (e.port = p ∧ d = c) →
      t.cell e.port d = { s.cell e.port d with
        request := if (s.cell e.port d).request = .queued then .waitRoom else (s.cell e.port d).request }

/-- R128, R137: an edge cell that holds x has asked, and its request state follows the answer. -/
def State.cellAsked (s t : State) (p : PortNo) (c : Condition) (x : Cell) : Prop :=
  let asked (r : RequestState) : Cell := { x with request := r }
  match s.answerTo p c with
  | .refused => t = s.setCell p c (asked .idle)
  | .active => t = s.setCell p c (asked .waitEnd)
  | .present => t = s.setCell p c (asked .queued)
  | .full => t = s.setCell p c (asked .waitRoom)
  | .queued =>
    (s.tsq.queue.length < 16 → t = (s.queuesCell p c).setCell p c (asked .queued)) ∧
      (16 ≤ s.tsq.queue.length → s.displaces t p c ∧ t.cell p c = asked .queued)

/-! #### Steps and preemption -/

/-- R143: the frames a step of each kind settles. -/
def StepKind.frames : StepKind → Nat
  | .voltage => 2
  | .selfCheck => 8
  | .resistance => 8
  | .charge => 4

/-- R155, R160 to R163: the front end as a step of this kind begins. -/
def Mfe.begun (m : Mfe) : StepKind → Mfe
  | .voltage => { m with source := .off, activity := .measuring, charge := .idle }
  | .selfCheck => { m with source := .voltage, activity := .selfCheck, charge := .idle }
  | .resistance => { m with source := .voltage, activity := .measuring, charge := .idle }
  | .charge => { m with source := .current, activity := .measuring, charge := .discharging }

/-- R161 to R163: the value of a step of this kind with these samples. -/
def Mfe.valueOf (m : Mfe) (main : Samples) (k : StepKind) : StepValue :=
  let v := offsetMean main m.mainOffset
  match k with
  | .resistance => ⟨resistanceOf v, overRange main, acFlag main, decide (v ≤ 0 ∨ 4999 ≤ v)⟩
  | .charge => ⟨10 * m.charge.count, decide (m.charge.count = 65535), acFlag main, false⟩
  | _ => ⟨v, overRange main, acFlag main, false⟩

/-- R164, R165: the verdict, the fail set and the values list that the values of a test give. -/
def RunningTest.judgedAs (x : RunningTest) (e : EnginePart) (v : Verdict) (f : FailSet) (l : List StepValue) : Prop :=
  let k := x.entry.kind
  let value (n : Nat) : Option Int := (x.values[n]?).map StepValue.value
  let charged := if k = .cap then 0 else 6
  let whole := (k = .cap ∧ x.values.length = 3) ∨ (k = .full ∧ x.values.length = 9)
  (k = .access → v = .pass ∧ f = ⟨false, false, false, false⟩ ∧ l = [⟨x.connected, false, false, false⟩]) ∧
  (k ≠ .access →
    (f.foreign = true ↔ k ≠ .cap ∧ ∃ n < 3, ∃ y, value n = some y ∧ e.fvLimit < y.natAbs) ∧
    (f.lowIr = true ↔ (k = .ir ∨ k = .full) ∧ ∃ n, 3 ≤ n ∧ n < 6 ∧ ∃ y, value n = some y ∧ y < e.irThreshold) ∧
    (f.open' = true ↔ (k = .cap ∨ k = .full) ∧ ∃ y, value charged = some y ∧ y < 1000) ∧
    (f.unbalanced = true ↔ whole ∧ ∃ tg rg, value (charged + 1) = some tg ∧ value (charged + 2) = some rg ∧
      e.balanceLimit < balanceOf tg.natAbs rg.natAbs) ∧
    v = (if f.foreign then .foreign else if f.lowIr then .lowIr else if f.open' then .open
      else if f.unbalanced then .unbalanced else .pass) ∧
    (¬ whole → l = x.values) ∧
    ∀ rest tr tg rg, whole → x.values = rest ++ [tr, tg, rg] → l = x.values ++
      [⟨balanceOf tg.value.natAbs rg.value.natAbs, tg.overRange || rg.overRange, false, false⟩,
        ⟨lengthOf tr.value.natAbs e.kmcap, tr.overRange, false, false⟩])

/-! #### Power -/

/-- R171: the sum of p_serv over the fitted ports of a class: those that the engine part e names as fitted and whose part is
held, whatever their state. -/
def State.classServ (s : State) (e : EnginePart) (c : PortClass) : Nat :=
  (allPorts.map fun p =>
    match tget s.csu.ports p with
    | some x => if e.fitted.getLsbD p.val = true ∧ x.cls = c then x.pServ else 0
    | none => 0).sum

/-- R171: the sum of the ports' present loads: p_serv while IN SERVICE or DRAINING, p_iso while ISOLATED. -/
def State.linesLoad (s : State) : Nat :=
  (allPorts.map fun p =>
    match (s.port p).state with
    | .inService => (s.part p).pServ
    | .draining _ => (s.part p).pServ
    | .isolated => (s.part p).pIso
    | _ => 0).sum

/-- R171: the four figures. -/
def State.loadsAre (s : State) (e : EnginePart) : Prop :=
  let test := (if s.tsq.running ≠ none then e.pTest else 0) + if s.mfe.source ≠ .off then e.pSrc else 0
  s.eWant = min 65535 (e.pBase + test + s.classServ e .essential) ∧ s.sWant = min 65535 (s.classServ e .standard) ∧
    s.fWant = min 65535 (s.classServ e .deferrable) ∧ s.presentLoad = min 65535 (e.pBase + test + s.linesLoad)

/-- No test runs, waits or is suspended, nothing is left over, and no cell asks for one when a port serves again. -/
def State.noTests (s : State) : Prop :=
  s.settled = true ∧ s.tsq.running = none ∧ s.tsq.queue = [] ∧ s.tsq.stack = [] ∧ s.mfe.source = .off ∧ s.noCellWaits ∧
    (∀ p, (s.cell p .link).mode.isLevel = false) ∧ s.portsOk = true ∧ s.testsOwnPorts = true

/-- R170, R172: the LOAD report of this power epoch at a tier. With no test to end, an entry to tier 4 has left only the
base load and the ISOLATED ports. -/
def State.loadAtTier (s : State) (tier : Fin 5) : Message :=
  let entered := tier = 4 ∧ s.pmg.tier ≠ 4
  let isolated := (allPorts.map fun p => if (s.port p).state = .isolated then (s.part p).pIso else 0).sum
  .load (natHalf (s.uls.f.toNat / 64)) (natHalf s.eWant) (natHalf s.sWant) (natHalf s.fWant)
    (natHalf (if entered then min 65535 (s.engine.pBase + isolated) else s.presentLoad)) (natByte tier.val)

/-- R170: what a change of tier has done: at 3 or 4 no test and no outstanding power reference is left and the source is
off; at 4 every restore counter is 0, and every fitted port is OFF or ISOLATED with OFF to return to. -/
def State.tierEffects (s t : State) : Prop :=
  (s.pmg.tier.val < 3 → 3 ≤ t.pmg.tier.val → t.tsq.running = none ∧ t.tsq.stack = [] ∧ t.pmg.powerRef = none ∧
    t.mfe.source = .off) ∧
  (s.pmg.tier ≠ 4 → t.pmg.tier = 4 → ∀ p, t.restoreOf p = 0 ∧
    ((s.port p).state ≠ .unfitted →
      (t.port p).state = .off ∨ ((t.port p).state = .isolated ∧ (t.port p).returnState = some .off)))

/-- R116, R117, R176: port p, refused, has been sent a shed, or at tier 4 a shed at once. -/
def State.portShed (s t : State) (p : PortNo) : Prop :=
  let r := s.port p
  (r.state = .off → t.port p = r) ∧ (r.state = .isolated → t.port p = { r with returnState := some .off }) ∧
    (t.pmg.tier = 4 → r.state.serving = true → (t.port p).state = .off) ∧
    (t.pmg.tier ≠ 4 → r.state = .inService → (t.port p).state = if s.held p = 0 then .off else .draining .shed) ∧
    (t.pmg.tier ≠ 4 → r.state = .draining .shed → t.port p = r)

/-- R118, R176: port p, admitted, has been sent a restore when its restore counter has reached 2, and nothing before. -/
def State.portRestored (s t : State) (p : PortNo) : Prop :=
  let r := s.port p
  (s.restoreOf p = 0 ∨ r.state = .inService → t.port p = r) ∧
    (1 ≤ s.restoreOf p → r.state = .isolated → t.port p = { r with returnState := some .inService }) ∧
    (1 ≤ s.restoreOf p → r.state = .off ∨ r.state = .draining .shed → (t.port p).state = .inService)

/-! #### Bytes -/

/-- R185: a flag's bit of a packed byte. -/
def bitIf (n : Nat) (p : Prop) [Decidable p] : Nat := if p then n else 0

/-- R168: the plain tier of a mean. -/
def tierOf (e : EnginePart) (v : Nat) : Nat :=
  if e.va ≤ v then 1 else if e.vb ≤ v then 2 else if e.vc ≤ v then 3 else 4

/-- R168: the best tier whose floor plus 20 a mean reaches, 5 where there is none. -/
def marginTierOf (e : EnginePart) (v : Nat) : Nat :=
  if e.va + 20 ≤ v then 1 else if e.vb + 20 ≤ v then 2 else if e.vc + 20 ≤ v then 3 else 5

/-- The fitted ports of a class up to port p. -/
def State.classUpTo (s : State) (c : PortClass) (p : PortNo) : List PortNo :=
  allPorts.filter fun x => decide ((s.port x).state ≠ .unfitted ∧ (s.part x).cls = c ∧ x.val ≤ p.val)

/-- R174: q is the power share for a class: the engine and every peer with a valid load part, each with its want and
weight 1, in ascending address. -/
def State.sharesPower (s : State) (q : AuRequest) (c : PortClass) (reference : Half) (capacity : Nat) : Prop :=
  q.kind = .powerShare ∧ q.reference = reference ∧ q.capacity = min 65535 capacity ∧
    q.order = q.requesters.map Requester.id ∧ (q.requesters.Pairwise fun a b => a.id < b.id) ∧
    ∀ r, r ∈ q.requesters ↔ r = ⟨s.csu.address, min 65535 (s.want c), 1⟩ ∨
      ∃ x ∈ s.pvu.peers, ∃ l, x.load = some l ∧ l.age ≤ 2 ∧ r = ⟨x.address, min 65535 (l.want c), 1⟩

end Sys2Proof.Machine

namespace Sys2Proof

/-- R4: the payload length that a kind requires. -/
def RxMessage.lengthRight (m : RxMessage) : Prop :=
  let n := m.payload.length
  let at' (i : Nat) : Nat := (byteAt m.payload i).toNat
  ((m.kind = 1 ∨ m.kind = 2) ∧ n = 4) ∨ (m.kind = 3 ∧ n = 11) ∨ ((m.kind = 4 ∨ m.kind = 5) ∧ n = 3) ∨
    (m.kind = 6 ∧ n = 1) ∨ (m.kind = 7 ∧ n = 7) ∨ ((m.kind = 8 ∨ m.kind = 14) ∧ n = 2) ∨
    (m.kind = 9 ∧ 8 ≤ n ∧ at' 7 ≤ 11 ∧ (n = 12 + 3 * at' 7 ∨ n = 13 + 3 * at' 7)) ∨
    ((m.kind = 10 ∨ m.kind = 15) ∧ n = 5) ∨ (m.kind = 11 ∧ 3 ≤ n ∧ n ≤ 48) ∨
    (m.kind = 12 ∧ 4 ≤ n ∧ at' 3 ≤ 22 ∧ n = 4 + 2 * at' 3) ∨ (m.kind = 13 ∧ at' 2 = 1 ∧ n = 29) ∨
    (m.kind = 13 ∧ at' 2 = 2 ∧ n = 19)

/-- R3: the check over kind, destination, source, length and payload is the received one. -/
def RxMessage.checkRight (m : RxMessage) : Prop :=
  messageCheck (m.kind :: m.dest :: m.source :: natByte m.payload.length :: m.payload) = m.check

/-- R14: one of the fifteen kinds, and a CONFIGURE names a form (a payload too short to hold one names none: log
entry 8). -/
def RxMessage.kindRight (m : RxMessage) : Prop :=
  1 ≤ m.kind.toNat ∧ m.kind.toNat ≤ 15 ∧ (m.kind = 13 → m.payload[2]? = some 1 ∨ m.payload[2]? = some 2)

/-- R15: the four conditions. -/
def RxMessage.isUnexpected (m : RxMessage) (address : Nat) : Prop :=
  (m.source = 0 ∨ 31 < m.source.toNat ∨ 31 < m.dest.toNat) ∨
    ((m.kind = 7 ∨ m.kind = 8 ∨ m.kind = 10 ∨ m.kind = 12 ∨ m.kind = 13 ∨ m.kind = 14) ∧ m.dest = 0) ∨
    (1 ≤ m.kind.toNat ∧ m.kind.toNat ≤ 6 ∧ (17 ≤ m.source.toNat ∨ m.dest ≠ 0)) ∨
    ((m.kind = 9 ∨ m.kind = 11 ∨ m.kind = 15) ∧ (m.dest = 0 ∨ m.dest.toNat = address))

/-- R185: the report or claim command that a message spells. -/
def RxMessage.report? (m : RxMessage) : Option Instr :=
  let b := byteAt m.payload
  let h := halfAt m.payload
  match m.kind.toNat with
  | 1 => some (.demand m.source (h 0) (b 2) (b 3))
  | 2 => some (.spanClaim m.source (h 0) (b 2) (b 3))
  | 3 => some (.load m.source (h 0) (h 2) (h 4) (h 6) (h 8) (b 10))
  | 4 => some (.claim m.source (b 0) (h 1))
  | 5 => some (.hold m.source (b 0) (h 1))
  | 6 => some (.release m.source (b 0))
  | _ => none

/-- R185: the request command that a message spells. -/
def RxMessage.request? (m : RxMessage) : Option Instr :=
  let b := byteAt m.payload
  let h := halfAt m.payload
  match m.kind.toNat with
  | 7 => some (.testOrder m.source (h 0) (b 2) (b 3) (b 4) (h 5))
  | 8 => some (.testCancel m.source (h 0))
  | 10 =>
    match (b 2).toNat with
    | 0 => some (.statusQueryEngine m.source (h 0) (b 4))
    | 1 => some (.statusQueryPort m.source (h 0) (b 3) (b 4))
    | 2 => some (.statusQueryEvents m.source (h 0))
    | 3 => some (.statusQueryTests m.source (h 0))
    | 4 => some (.statusQueryLog m.source (h 0) (b 3))
    | 5 => some (.statusQueryClaims m.source (h 0))
    | 6 => some (.statusQueryPeer m.source (h 0) (b 3))
    | _ => some (.statusQueryUnknownSelector m.source (h 0) (b 2))
  | 12 => some (.clearEvents m.source (h 0) (b 2) ((List.range (b 3).toNat).map fun i => (b (4 + 2 * i), b (5 + 2 * i))))
  | 13 =>
    if b 2 = 1 then
      some (.configureEngine m.source (h 0)
        ⟨h 3, b 5, b 6, h 7, h 9, b 11, b 12, h 13, h 15, h 17, h 19, h 21, h 23, h 25, h 27⟩)
    else
      some (.configurePort m.source (h 0)
        ⟨b 3, b 4, b 5, h 6, b 8, b 9, b 10, b 11, b 12, b 13, b 14, h 15, h 17⟩)
  | 14 => some (.restart m.source (h 0))
  | _ => none

end Sys2Proof

/-! ### The machine -/

/-- One step carries out the command at the front of the queue on the state with the queue's rest. With an empty queue
the engine idles (the model's choice, log entry 14). -/
def Obligations.StepRunsTheFrontCommand : Prop :=
  (∀ (c : Instr) (rest : List Instr) (s : State), step (s.setPending (c :: rest)) = exec c (s.setPending rest)) ∧
    ∀ s : State, s.pending = [] → step s = .next s

/-- Every command answers a next state from every state and leaves the queue of waiting commands alone: no event stops
the engine. That an event the state does not admit answers a next state, too, is the model's choice (log entry 2), and
so is that a power-on reset keeps the queue (log entry 25). -/
def Obligations.EveryCommandAnswersANextState : Prop :=
  ∀ (c : Instr) (s : State), ∃ t, exec c s = .next t ∧ t.pending = s.pending

/-- 12.1, R178 to R182: only a power-on reset changes the station address; the engine state and the configuration image
change only at a power-on reset, a message end, a CONFIGURE or a RESTART. -/
def Obligations.OnlyStationCommandsChangeTheConfiguration : Prop :=
  ∀ (c : Instr) (s t : State), exec c s = .next t →
    (t.csu.address ≠ s.csu.address → ∃ strap fvd gflt mains, c = .powerOnReset strap fvd gflt mains) ∧
    (t.csu ≠ s.csu → isStationCommand c = true)

/-- The state right after reset meets every invariant stated below. Its input levels are the model's choice (log entry 6). -/
def Obligations.InvariantsHoldAtReset : Prop :=
  State.reset.poolOk = true ∧ State.reset.withinLimits = true ∧ State.reset.settled = true ∧
    State.reset.lineSafe = true ∧ State.reset.claimsOk = true ∧ State.reset.coverageOk = true ∧
    State.reset.pbi.ok = true ∧ State.reset.laneOk = true ∧ State.reset.testsOwnPorts = true

/-- R178, R21, R23, R28, R55, R77, R94, R107, R108, R123, R134, R153, R154, R166, R169, R177: what a power-on reset
leaves, in every block. A low MAINS level is taken as a falling edge, which with no mean gives tier 1. The commands that
wait stay (the model's choice, log entry 25). -/
def Obligations.PowerOnResetLeavesThePowerOnValues : Prop :=
  ∀ (strap : BitVec 4) (fvd gflt : BitVec 12) (mains : Bool) (s : State),
    ∃ t, exec (.powerOnReset strap fvd gflt mains) s = .next t ∧
      t.csu = { state := .unconfigured, address := strap.toNat + 1, engine := none, ports := Vector.replicate 12 none } ∧
      (t.pbi.rx = .discarding ∧ t.pbi.tx = .idle ∧ t.pbi.queue = [] ∧ t.pbi.rxValid = 0 ∧ t.pbi.rxDiscard = 0 ∧
        t.pbi.collisions = 0 ∧ t.pbi.txDropped = 0 ∧ ∀ k, t.pbi.errors.has k = false) ∧
      (t.pvu.peers = [] ∧ t.pvu.accessWanted = false ∧
        ∀ r, (t.claimOf r).holder = none ∧ (t.claimOf r).stamp = 0 ∧ (t.claimOf r).lastRefresh = 0 ∧
          (t.claimOf r).silence = 0 ∧ (t.claimOf r).own = .none ∧ (t.claimOf r).holdOff = none) ∧
      t.au = { inFlight := none, pendingPort := none, pendingShare := none, pendingPower := none } ∧
      (t.uls.f = 0 ∧ t.uls.period = 1000 ∧ t.uls.lastMarker = none ∧ t.uls.miss = 0 ∧ t.uls.sync = .nosync ∧
        t.uls.current = none ∧ t.uls.pendingWindow = none ∧ t.uls.shareRef = none ∧ t.uls.lastCut = none ∧
        t.uls.ownDemand = 0 ∧ t.uls.admitted = 0 ∧ (∀ k, t.uls.coverage.getD k 0 = 0) ∧ t.uls.grantMap = [] ∧
        t.uls.granted = 0 ∧ t.uls.division = none ∧ t.uls.rotation = 0 ∧ t.uls.inFlight = [] ∧
        t.uls.retransmit = []) ∧
      (t.pqm.free = 512 ∧ ∀ p, (t.pq p).queue = [] ∧ (t.pq p).next = 0 ∧ (t.pq p).drainCount = 0 ∧
        (t.pq p).counters = ⟨0, 0, 0, 0, 0, 0, 0⟩) ∧
      (∀ p, t.port p = { state := .unfitted, takeWaiting := false, shedPending := false, returnState := none,
                         link := false, relayTransceiver := false, relayFrontEnd := false, relayAccess := false }) ∧
      (t.leu.report = 0 ∧ ∀ p, (t.line p).fvdLevel = fvd.getLsbD p.val ∧ (t.line p).gfltLevel = gflt.getLsbD p.val ∧
        (t.line p).exit = 0 ∧ ∀ c, t.cell p c = { mode := .none, priority := 0, latched := false, seen := false,
                                                  request := .idle, rearm := 4096 }) ∧
      (t.tsq.queue = [] ∧ t.tsq.running = none ∧ t.tsq.stack = [] ∧ t.tsq.log = [] ∧ t.tsq.nextSeq = 0) ∧
      (t.mfe.source = .off ∧ t.mfe.connected = none ∧ t.mfe.activity = .idle ∧ t.mfe.mainOffset = none ∧
        t.mfe.checkOffset = none ∧ t.mfe.lastCalibration = none ∧ t.mfe.age = 1024 ∧ t.mfe.failures = 0 ∧
        t.mfe.failed = false) ∧
      (t.pmg.pin = mains ∧ t.pmg.mains = (if mains then .present else .absent) ∧
        t.pmg.tier = (if mains then 0 else 1) ∧ t.pmg.samples = [] ∧ t.pmg.lastMean = none ∧
        (∀ p, t.restoreOf p = 0) ∧ t.pmg.powerRef = none ∧ t.pmg.evaluation = 0 ∧ t.pmg.lastEvaluation = none) ∧
      t.pending = s.pending

/-! ### Invariants of every step -/

/-- R95, R96: free buffers, queued segments, in-flight entries and retransmit entries total 512 after every step, and
the packet records stay in order. -/
def Obligations.BuffersAlwaysTotal512 : Prop :=
  ∀ s t : State, s.poolOk = true → step s = .next t → t.poolOk = true

/-- R9, R134, R146, R153: no step takes a list past its limit. No step leaves a notice or a selection over (the model's
own bookkeeping, log entry 10). -/
def Obligations.LimitsAndSettlingAreKept : Prop :=
  ∀ s t : State, step s = .next t →
    (s.withinLimits = true → t.withinLimits = true) ∧ (s.settled = true → t.settled = true)

/-- R108 to R112, R154, R155: after every step the relays follow the port states, no pair is connected to two things,
the source is on only for a tested pair without foreign voltage whose binder is HELD at tier 2 or better, and a port is
on the access bus only while ACCESS and its binder are HELD. Where the shed-pending and take-waiting flags of a record may
stand is read from the tables by inference (log entries 19 and 20). -/
def Obligations.LineSafetyIsKept : Prop :=
  ∀ s t : State, s.lineSafe = true → step s = .next t → t.lineSafe = true

/-- R28: after every step the holder of a resource is the engine's own address exactly when the own state is HELD, and
the stamp is then the engine's own. -/
def Obligations.HolderAgreesWithOwnState : Prop :=
  ∀ s t : State, s.claimsOk = true → step s = .next t → t.claimsOk = true

/-- R23, R25, R27: after every step the peer table is ordered by address, has one entry at most for an address 1 to 16
other than the engine's own, at most two span records of different epochs in each, and no entry that should have
left. -/
def Obligations.PeerTableStaysInOrder : Prop :=
  ∀ s t : State, s.peersOk = true → step s = .next t → t.peersOk = true

/-- R74, R75: after every step each coverage count is the number of lower-address peers whose span record for the
current share epoch covers the slot. -/
def Obligations.CoverageCountsTheCoveringPeers : Prop :=
  ∀ s t : State, s.coverageOk = true → step s = .next t → t.coverageOk = true

/-- R5 to R12: after every step the transmit queue is in enqueue order, attempt numbers are 1 to 8, and the
transmitter's state names an entry that is in the queue. -/
def Obligations.TransmitQueueStaysInOrder : Prop :=
  ∀ s t : State, s.pbi.ok = true → step s = .next t → t.pbi.ok = true

/-- R82, R85, R87, R90, R92: after every step the grant map and the in-flight list name no slot twice and stand in slot
order, in-flight attempts are 1 to 3 and of one frame, and retransmit attempts are 1 or 2. -/
def Obligations.LaneListsStayInOrder : Prop :=
  ∀ s t : State, s.laneOk = true → step s = .next t → t.laneOk = true

/-- R139: after every step the ports IN TEST, DRAINING for TEST, or DRAINING for SHED with a take waiting are exactly
the ports of the running and suspended tests, each of one test only. -/
def Obligations.TestsOwnTheirPorts : Prop :=
  ∀ s t : State, s.testsOwnPorts = true → step s = .next t → t.testsOwnPorts = true

/-! ### The allocation unit and the claim comparison -/

/-- R49: no allocation exceeds its requester's demand, and the allocations sum to the smaller of the capacity and the
total demand, for every request whose order list names every requester once (R43). -/
def Obligations.AllocationsSumToTheSmaller : Prop :=
  ∀ q : AuRequest, (q.requesters.map Requester.id).Nodup → q.order.Perm (q.requesters.map Requester.id) →
    (∀ r ∈ q.requesters, q.allocationOf r ≤ r.demand) ∧
      (q.allocations.map Prod.snd).sum = min q.capacity ((q.requesters.map Requester.demand).sum)

/-- R29: when one claim beats another, and that of two claims from different engines exactly one does. -/
def Obligations.ExactlyOneClaimBeatsTheOther : Prop :=
  ∀ (a b : Half) (x y : Nat),
    (beats a x b y = true ↔
      (1 ≤ (b - a).toNat ∧ (b - a).toNat ≤ 32767) ∨ (((b - a).toNat = 0 ∨ (b - a).toNat = 32768) ∧ x < y)) ∧
    (x ≠ y → (beats a x b y = true ↔ beats b y a x = false))

/-! ### The peer bus -/

/-- R2, R3, R185: each report and claim message, framed as its sender frames it, is taken as the command of the same
fields. -/
def Obligations.ReportsReadBackAsSent : Prop :=
  ∀ (s : State) (a : Nat), s.receivingOther → 1 ≤ s.csu.address → 1 ≤ a → a ≤ 16 → a ≠ s.csu.address →
    (∀ e d w, exec (.messageEnd ((Message.demand e d w).framed a)) s = exec (.demand (natByte a) e d w) s.atValidEnd) ∧
    (∀ e k n, exec (.messageEnd ((Message.spanClaim e k n).framed a)) s =
      exec (.spanClaim (natByte a) e k n) s.atValidEnd) ∧
    (∀ e ew sw fw pl t, exec (.messageEnd ((Message.load e ew sw fw pl t).framed a)) s =
      exec (.load (natByte a) e ew sw fw pl t) s.atValidEnd) ∧
    (∀ r t, exec (.messageEnd ((Message.claim r t).framed a)) s = exec (.claim (natByte a) (natByte r.val) t) s.atValidEnd) ∧
    (∀ r t, exec (.messageEnd ((Message.hold r t).framed a)) s = exec (.hold (natByte a) (natByte r.val) t) s.atValidEnd) ∧
    (∀ r, exec (.messageEnd ((Message.release r).framed a)) s = exec (.release (natByte a) (natByte r.val)) s.atValidEnd)

/-- R17: a valid message increases RX VALID by 1 and is routed by its destination and kind: a request to the engine's own
address goes to the CSU, a report or claim message to 0 goes to the PVU, and a message to another address is passed
over. -/
def Obligations.ValidMessagesAreHandedOn : Prop :=
  ∀ (s : State) (m : RxMessage), s.receivingOther → 1 ≤ s.csu.address → m.checkRight → m.kindRight → m.lengthRight →
    m.source.toNat ≠ s.csu.address → ¬ m.isUnexpected s.csu.address →
    (m.dest.toNat = s.csu.address →
      ∃ c, m.request? = some c ∧ exec (.messageEnd m) s = exec c s.atValidEnd) ∧
    (m.dest = 0 → ∃ c, m.report? = some c ∧ exec (.messageEnd m) s = exec c s.atValidEnd) ∧
    (m.dest ≠ 0 → m.dest.toNat ≠ s.csu.address → exec (.messageEnd m) s = .next s.atValidEnd)

/-- R4, R14, R15: the first of CHECK, KIND, LENGTH, SELF and UNEXPECTED that holds at the end of a message discards it:
RX DISCARD increases by 1 and the error kind joins the error set, and nothing else changes but for the entry to CONFLICT
after a SELF outside CONFLICT. A CONFIGURE too short to hold a form is taken as a KIND error (log entry 8). -/
def Obligations.MessagesInErrorAreDiscarded : Prop :=
  ∀ (s : State) (m : RxMessage), s.receivingOther →
    (¬ m.checkRight → exec (.messageEnd m) s = .next (s.atDiscard .check)) ∧
    (m.checkRight → ¬ m.kindRight → exec (.messageEnd m) s = .next (s.atDiscard .kind)) ∧
    (m.checkRight → m.kindRight → ¬ m.lengthRight → exec (.messageEnd m) s = .next (s.atDiscard .length)) ∧
    (m.checkRight → m.kindRight → m.lengthRight → m.source.toNat = s.csu.address →
      (s.csu.state = .conflict → exec (.messageEnd m) s = .next (s.atDiscard .self)) ∧
      ∃ t, exec (.messageEnd m) s = .next t ∧ t.csu = { s.csu with state := .conflict } ∧
        t.pbi.rxDiscard = satInc s.pbi.rxDiscard ∧ t.pbi.errors = s.pbi.errors.add .self ∧
        t.pbi.rxValid = s.pbi.rxValid ∧ t.pbi.rx = .idle) ∧
    (m.checkRight → m.kindRight → m.lengthRight → m.source.toNat ≠ s.csu.address → m.isUnexpected s.csu.address →
      exec (.messageEnd m) s = .next (s.atDiscard .unexpected))

/-- R16, R41, R76, R93, R101, R107, R115, R121, R133, R150, R177, R181: the entry to CONFLICT after a SELF discard, in
each block. The transmit queue is emptied, and the RELEASEs of what the engine has claimed follow, as far as the queue
has room. The tests' ports are returned, the buffers in flight and in the retransmit list are free again and counted,
and a drain for SHED that this empties ends at once (by inference, log entry 27). -/
def Obligations.SelfDiscardEntersConflict : Prop :=
  ∀ (s : State) (m : RxMessage), s.receivingOther → s.csu.state ≠ .conflict → m.checkRight → m.kindRight →
    m.lengthRight → m.source.toNat = s.csu.address →
    ∃ t, exec (.messageEnd m) s = .next t ∧ t.csu = { s.csu with state := .conflict } ∧
      (s.claimed.length ≤ 8 → t.pbi.queue.map TxEntry.msg = s.claimed.map Message.release) ∧
      t.pbi.txDropped = satAdd s.pbi.txDropped (s.claimed.length - 8) ∧
      (∀ r, (t.claimOf r).own = .none ∧ (t.claimOf r).holdOff = none ∧
        (t.claimOf r).holder = if (s.claimOf r).own = .held then none else (s.claimOf r).holder) ∧
      t.pvu.accessWanted = false ∧ t.pvu.peers = s.pvu.peers ∧
      (t.tsq.queue = [] ∧ t.tsq.running = none ∧ t.tsq.stack = [] ∧ t.tsq.log = s.tsq.log ∧
        t.tsq.nextSeq = s.tsq.nextSeq) ∧
      (t.uls.f = s.uls.f ∧ t.uls.current = none ∧ t.uls.pendingWindow = none ∧ t.uls.shareRef = none ∧
        t.uls.grantMap = [] ∧ t.uls.division = none ∧ t.uls.inFlight = [] ∧ t.uls.retransmit = [] ∧
        t.uls.sync = if s.uls.sync = .sync then .resync else s.uls.sync) ∧
      (∀ p c, t.cell p c = { s.cell p c with request := .idle }) ∧
      t.mfe.source = .off ∧ t.pmg = { s.pmg with powerRef := none } ∧ t.au = s.au ∧ t.pending = s.pending ∧
      (s.poolOk = true → s.portsOk = true → s.testsOwnPorts = true → s.portsInConflict t)

/-- R13: the receiver's states, and the error that each event inside a message counts. The engine's own message is neither
evaluated nor counted at its end, but a further character after it is a LENGTH error (how the model tells an own message
is log entry 29's). An event that the receiver's state does not admit changes nothing but the idle time (the model's
choice, log entries 2 and 15). -/
def Obligations.ReceiverFollowsTheLine : Prop :=
  (∀ (s : State) (m : RxMessage),
    (s.pbi.ownEnded = true →
      exec (.messageEnd m) s = .next (s.setPbi { s.pbi with rx := .idle, ownEnded := false, idle := 11 })) ∧
    (s.pbi.ownEnded = false → s.pbi.rx ≠ .receiving ∨ (∃ o, s.pbi.tx = .sending o) →
      exec (.messageEnd m) s = .next s)) ∧
  (∀ s : State,
    (s.pbi.rx = .receiving →
      exec .rxByteError s = .next (s.setPbi { s.pbi with
        rx := .discarding, ownEnded := false, idle := 0, rxDiscard := satInc s.pbi.rxDiscard,
        errors := s.pbi.errors.add .byte }) ∧
      exec .rxLengthError s = .next (s.setPbi { s.pbi with
        rx := .discarding, ownEnded := false, idle := 0, rxDiscard := satInc s.pbi.rxDiscard,
        errors := s.pbi.errors.add .length })) ∧
    (s.pbi.rx ≠ .receiving → exec .rxByteError s = .next s ∧ exec .rxLengthError s = .next s)) ∧
  ∀ s : State, s.pbi.ownEnded = false →
    (s.pbi.rx = .idle → exec .messageBegin s = .next (s.setPbi { s.pbi with rx := .receiving, idle := 0 }) ∧
      exec .nonStartCharacter s = .next (s.setPbi { s.pbi with rx := .discarding, idle := 0 })) ∧
    (s.pbi.rx ≠ .idle → exec .messageBegin s = .next (s.setPbi { s.pbi with idle := 0 }) ∧
      exec .nonStartCharacter s = .next (s.setPbi { s.pbi with idle := 0 })) ∧
    (s.pbi.rx = .receiving →
      exec .rxShortError s = .next (s.setPbi { s.pbi with
        rx := .idle, idle := 11, rxDiscard := satInc s.pbi.rxDiscard, errors := s.pbi.errors.add .short })) ∧
    (s.pbi.rx ≠ .receiving → exec .rxShortError s = .next s) ∧
    (s.pbi.rx = .discarding → exec .discardingEnd s = .next (s.setPbi { s.pbi with rx := .idle, idle := 11 })) ∧
    (s.pbi.rx ≠ .discarding → exec .discardingEnd s = .next s)

/-- R5, R6, R8, R10: the next entry, the first by class and then by enqueue order, starts when the line has been idle for
its class gap (12, 16 or 20 bit times); a transmission that completes leaves the queue; a backed-off entry starts at its
wait. What each does to the receiver is log entry 29's inference, and that an event which the transmitter's state does not
admit changes nothing is the model's choice (log entries 2 and 15). -/
def Obligations.TransmitterSendsInOrder : Prop :=
  ∀ (s : State) (e : TxEntry), s.pbi.ok = true → e ∈ s.pbi.queue →
    (s.pbi.tx = .waitingGap →
      (∀ x ∈ s.pbi.queue, e.msg.cls < x.msg.cls ∨ (e.msg.cls = x.msg.cls ∧ e.order ≤ x.order)) →
      ∀ idle, exec (.transmitStart idle) s =
        .next (if 8 + 4 * e.msg.cls ≤ idle then
          s.setPbi { s.pbi with tx := .sending e.order, rx := .idle, ownEnded := false, idle := 0 } else s)) ∧
    (s.pbi.tx = .sending e.order →
      ∃ t, exec .transmissionComplete s = .next t ∧
        t = s.setPbi { s.pbi with
          queue := t.pbi.queue, tx := t.pbi.tx, rx := .receiving, ownEnded := true, idle := 0 } ∧
        (∀ x, x ∈ t.pbi.queue ↔ x ∈ s.pbi.queue ∧ x ≠ e) ∧
        (t.pbi.queue = [] → t.pbi.tx = .idle) ∧ (t.pbi.queue ≠ [] → t.pbi.tx = .waitingGap)) ∧
    (∀ wait, s.pbi.tx = .backoff e.order wait → ∀ idle, exec (.backoffEnd idle) s =
      .next (if wait ≤ idle then
        s.setPbi { s.pbi with tx := .sending e.order, rx := .idle, ownEnded := false, idle := 0 } else s)) ∧
    ((∀ o, s.pbi.tx ≠ .sending o) → exec .transmissionComplete s = .next s ∧ exec .collision s = .next s)

/-- R7: a collision adds 1 to COLLISIONS; at attempts 1 to 7 the entry keeps its place with the next attempt number and
backs off for its class gap plus ((address + 3a) mod 8) times 4 bit times; at attempt 8 it leaves the queue, TX DROPPED
increases by 1 and the transmitter enters WAITING GAP or IDLE. -/
def Obligations.CollisionsBackOffOrDrop : Prop :=
  ∀ (s : State) (e : TxEntry), s.pbi.ok = true → e ∈ s.pbi.queue → s.pbi.tx = .sending e.order → e.fate = .backoff →
    (∀ x ∈ s.pbi.queue, x.order ≠ e.order → x.msg.supersedes e.msg = false) →
    ∃ t, exec .collision s = .next t ∧
      t = s.setPbi { s.pbi with
        queue := t.pbi.queue, tx := t.pbi.tx, idle := 0, txDropped := t.pbi.txDropped,
        collisions := satInc s.pbi.collisions } ∧
      (e.attempt ≤ 7 →
        t.pbi.tx = .backoff e.order (8 + 4 * e.msg.cls + (s.csu.address + 3 * e.attempt) % 8 * 4) ∧
        t.pbi.txDropped = s.pbi.txDropped ∧
        t.pbi.queue = s.pbi.queue.map fun x => if x = e then { e with attempt := e.attempt + 1 } else x) ∧
      (e.attempt = 8 →
        (∀ x, x ∈ t.pbi.queue ↔ x ∈ s.pbi.queue ∧ x ≠ e) ∧ t.pbi.txDropped = satInc s.pbi.txDropped ∧
        (t.pbi.queue = [] → t.pbi.tx = .idle) ∧ (t.pbi.queue ≠ [] → t.pbi.tx = .waitingGap))

/-- R9, R11, R12, R16: how the transmit queue takes an offered message: it supersedes, joins, displaces or is dropped, and
in CONFLICT it is dropped. -/
def Obligations.OfferedMessagesSupersedeJoinOrDisplace : Prop :=
  (∀ x y : Message, x.supersedes y = true ↔
    (∃ a b c a' b' c', x = .demand a b c ∧ y = .demand a' b' c') ∨
    (∃ a b c a' b' c', x = .spanClaim a b c ∧ y = .spanClaim a' b' c') ∨
    (∃ a b c d e f a' b' c' d' e' f', x = .load a b c d e f ∧ y = .load a' b' c' d' e' f') ∨
    (∃ r t t', x = .hold r t ∧ y = .hold r t') ∨
    (∃ d a b c a' b' c', x = .statusReply d a b c ∧ y = .statusReply d a' b' c')) ∧
  ∀ (s : State) (m : Message),
    (s.csu.state = .conflict → s.offer m = s.setPbi { s.pbi with txDropped := satInc s.pbi.txDropped }) ∧
    (s.csu.state ≠ .conflict → s.pbi.ok = true →
      (∀ e ∈ s.pbi.queue, m.supersedes e.msg = true → s.pbi.tx ≠ .sending e.order →
        (∀ x ∈ s.pbi.queue, m.supersedes x.msg = true → s.pbi.tx ≠ .sending x.order → x = e) →
        s.offer m = s.setPbi { s.pbi with queue := s.pbi.queue.map fun x =>
          if x = e then
            { e with
              msg := m, byRestart := false,
              attempt := if s.pbi.tx.backoffOrder e.order = true then e.attempt else 1 }
          else x }) ∧
      ((∀ x ∈ s.pbi.queue, m.supersedes x.msg = true → s.pbi.tx = .sending x.order) →
        (s.pbi.queue.length < 8 →
          s.offer m = s.setPbi { s.pbi with
            queue := s.pbi.queue ++ [⟨m, s.pbi.nextOrder, 1, .backoff, false⟩], nextOrder := s.pbi.nextOrder + 1,
            tx := if s.pbi.tx = .idle then .waitingGap else s.pbi.tx }) ∧
        (s.pbi.queue.length = 8 → m.cls = 3 →
          s.offer m = s.setPbi { s.pbi with txDropped := satInc s.pbi.txDropped }) ∧
        (s.pbi.queue.length = 8 → m.cls ≠ 3 →
          (∀ x ∈ s.pbi.queue, x.msg.cls = 3 → s.pbi.tx = .sending x.order) →
          s.offer m = s.setPbi { s.pbi with txDropped := satInc s.pbi.txDropped }) ∧
        (s.pbi.queue.length = 8 → m.cls ≠ 3 → ∀ e ∈ s.pbi.queue, e.msg.cls = 3 → s.pbi.tx ≠ .sending e.order →
          (∀ x ∈ s.pbi.queue, x.msg.cls = 3 → s.pbi.tx ≠ .sending x.order → x.order ≤ e.order) →
          s.offer m = s.setPbi { s.pbi with
            queue := (s.pbi.queue.filter fun x => decide (x ≠ e)) ++ [⟨m, s.pbi.nextOrder, 1, .backoff, false⟩],
            nextOrder := s.pbi.nextOrder + 1, txDropped := satInc s.pbi.txDropped,
            tx := if s.pbi.tx.backoffOrder e.order = true then .waitingGap else s.pbi.tx })))

/-! ### The peer table -/

/-- R23 to R26: a DEMAND, a SPAN CLAIM or a LOAD from a peer makes its entry if there is none and sets the part it
carries, within the ranges of the table; a third epoch pushes out the record of the earlier epoch. Other peers' entries
stay. That an epoch above 8191 is kept as received and compared over all 16 bits is the model's choice (log entry 33);
of two epochs of which neither is earlier, which one a third pushes out is left free (log entry 5) and stated nowhere.
-/
def Obligations.ReportsEnterThePeerTable : Prop :=
  ∀ (s : State) (src : Byte), s.fromPeer src = true →
    let e : PeerEntry := (s.peer? src.toNat).getD { address := src.toNat, demand := none, spans := [], load := none }
    (∀ epoch amount weight, ∃ t, exec (.demand src epoch amount weight) s = .next t ∧
      t = { s with pvu := { s.pvu with peers := t.pvu.peers } } ∧
      t.peer? src.toNat = some { e with demand := some ⟨epoch, min 128 amount.toNat, max 1 (min 15 weight.toNat), 0⟩ } ∧
      ∀ x, x ≠ src.toNat → t.peer? x = s.peer? x) ∧
    (∀ epoch eWant sWant fWant present tier, ∃ t, exec (.load src epoch eWant sWant fWant present tier) s = .next t ∧
      t = { s with pvu := { s.pvu with peers := t.pvu.peers } } ∧
      t.peer? src.toNat =
        some { e with load := some ⟨epoch, eWant, sWant, fWant, present, min 4 tier.toNat, 0⟩ } ∧
      ∀ x, x ≠ src.toNat → t.peer? x = s.peer? x) ∧
    (∀ epoch start len, ∃ t spans, exec (.spanClaim src epoch start len) s = .next t ∧
      t = { s with
        pvu := { s.pvu with peers := t.pvu.peers }, uls := { s.uls with coverage := t.uls.coverage },
        freeDraws := t.freeDraws } ∧
      t.peer? src.toNat = some { e with spans := spans } ∧ (∀ x, x ≠ src.toNat → t.peer? x = s.peer? x) ∧
      ((∃ r ∈ e.spans, r.epoch = epoch) →
        spans = e.spans.map fun r => if r.epoch = epoch then ⟨epoch, start, len⟩ else r) ∧
      ((∀ r ∈ e.spans, r.epoch ≠ epoch) →
        (e.spans.length < 2 → spans = e.spans ++ [⟨epoch, start, len⟩]) ∧
        ∀ a b, e.spans = [a, b] →
          (epochEarlier a.epoch b.epoch = true → spans = [b, ⟨epoch, start, len⟩]) ∧
          (epochEarlier b.epoch a.epoch = true → spans = [a, ⟨epoch, start, len⟩])) ∧
      (s.csu.address ≤ src.toNat → t.uls.coverage = s.uls.coverage))

/-! ### Claims -/

/-- R30: a CLAIM or HOLD heard while the own state is NONE or WAITING makes its sender the holder, or renews it, unless the
recorded peer's claim beats it. While SETTLING it ends the settle when it beats the own claim and contests it otherwise
(R35). A resource above 8 changes nothing (R28). -/
def Obligations.ClaimMessagesUpdateTheView : Prop :=
  ∀ (s : State) (src : Byte) (stamp : Half), s.fromPeer src = true → s.settled = true →
    ∀ msg : Byte → Byte → Half → Instr, msg = .claim ∨ msg = .hold →
      (∀ resource : Byte, 9 ≤ resource.toNat → exec (msg src resource stamp) s = .next s) ∧
      ∀ r : ResourceNo,
        let c := s.claimOf r
        let x := src.toNat
        let heard := exec (msg src (natByte r.val) stamp) s
        (c.own = .none ∨ c.own = .waiting →
          (c.holder = none ∨ c.holder = some x ∨ (∃ y, c.holder = some y ∧ beats stamp x c.stamp y = true) →
            heard = .next (s.setClaim r { c with holder := some x, stamp := stamp, lastRefresh := s.uls.f, silence := 0 })) ∧
          (∀ y, c.holder = some y → y ≠ x → beats stamp x c.stamp y = false → heard = .next s)) ∧
        (c.own = .settling →
          heard = .next (s.setClaim r
            (if beats stamp x c.ownStamp s.csu.address then
              { c with own := .waiting, holder := some x, stamp := stamp, lastRefresh := s.uls.f, silence := 0 }
            else { c with contested := true })))

/-- R36, R37, R39, R141: a HELD claim answers every CLAIM, and every HOLD that it beats, with HOLD. A HOLD that it does not
beat takes the resource: RELEASE is offered, the engine waits behind the winner, and a binder takes the ACCESS claim with
it. The lost notice sends the test that uses the claim back to CLAIM at its first conflict and ends it with CLAIM LOST at
its second; a test in WAIT PORT takes no notice (the model's choice, log entry 38). -/
def Obligations.HeldClaimAnswersRivals : Prop :=
  ∀ (s : State) (src : Byte) (stamp : Half) (r : ResourceNo), s.fromPeer src = true → s.settled = true →
    (s.claimOf r).own = .held →
    let c := s.claimOf r
    let answered := (s.setClaim r { c with refresh := 0 }).offer (.hold r c.ownStamp)
    exec (.claim src (natByte r.val) stamp) s = .next answered ∧
    (beats c.ownStamp s.csu.address stamp src.toNat = true → exec (.hold src (natByte r.val) stamp) s = .next answered) ∧
    (beats c.ownStamp s.csu.address stamp src.toNat = false →
      let lost := exec (.hold src (natByte r.val) stamp) s
      let uses (x : RunningTest) : Prop := x.phase ≠ .waitPort ∧ (r = s.binderOf x.entry.port ∨ r = accessBus)
      let yielded (t : State) : Prop :=
        t.claimOf r = { c with
          own := .waiting, holder := some src.toNat, stamp := stamp, lastRefresh := s.uls.f, silence := 0,
          markedWaiting := false } ∧
        (r ≠ accessBus → (t.claimOf accessBus).own = .none) ∧
        t.pbi = (if r ≠ accessBus ∧ ((s.claimOf accessBus).own = .settling ∨ (s.claimOf accessBus).own = .held) then
            ((s.offer (.release r)).offer (.release accessBus)).pbi
          else (s.offer (.release r)).pbi) ∧
        ∀ p, (t.port p).state = (s.port p).state
      ((∀ x, s.tsq.running = some x → ¬ uses x) →
        ∃ t, lost = .next t ∧ yielded t ∧ (∀ q, q ≠ r → q ≠ accessBus → t.claimOf q = s.claimOf q) ∧
          t.pvu.accessWanted = s.pvu.accessWanted ∧ t.tsq = s.tsq) ∧
      (∀ x, s.tsq.running = some x → uses x → x.conflicts = 0 →
        let b := s.binderOf x.entry.port
        ∃ t, lost = .next t ∧ yielded t ∧
          t.tsq = { s.tsq with running := some { x with conflicts := 1, phase := .claim, stage := .notBegun } } ∧
          t.mfe.source = .off ∧ (t.port x.entry.port).relayFrontEnd = false ∧
          (t.port x.entry.port).relayAccess = false ∧
          t.pvu.accessWanted = (if r = accessBus then true else s.pvu.accessWanted) ∧
          ∀ q, q ≠ r → q ≠ accessBus → t.claimOf q =
            if r = accessBus ∧ q = b ∧ (s.claimOf b).own = .held then
              { s.claimOf q with markedWaiting := true, unused := 0 }
            else s.claimOf q) ∧
      (∀ x, s.runsAlone x → uses x → 1 ≤ x.conflicts → ∃ t, lost = .next t ∧ s.testEnded t x (some .claimLost)))

/-- R31, R32, R34: a RELEASE from the recorded holder and an expiry clear the view entry, and an engine that waits for the
resource without a hold-off then claims it with a fresh stamp and a settle of 4. A RELEASE from another peer changes
nothing. That an expiry of an entry without a peer as holder changes nothing is the model's choice (log entries 2 and
15). -/
def Obligations.FreedResourceIsClaimedAtOnce : Prop :=
  ∀ (s : State) (r : ResourceNo),
    let c := s.claimOf r
    let cleared := { c with holder := none, stamp := 0, lastRefresh := 0, silence := 0 }
    let after := if c.own = .waiting ∧ c.holdOff = none then
        (s.setClaim r { cleared with own := .settling, ownStamp := s.uls.f, settle := 4, contested := false }).offer
          (.claim r s.uls.f)
      else s.setClaim r cleared
    (∀ src : Byte, s.fromPeer src = true →
      (c.holder = some src.toNat → exec (.release src (natByte r.val)) s = .next after) ∧
      (c.holder ≠ some src.toNat → exec (.release src (natByte r.val)) s = .next s)) ∧
    (c.holder ≠ none → c.own ≠ .held → exec (.viewEntryExpiry r) s = .next after) ∧
    (c.holder = none ∨ c.own = .held → exec (.viewEntryExpiry r) s = .next s)

/-- R33, R35, R140, R142, R145: at the end of a settle the claim becomes HELD with the engine's own address and stamp in the
view, and a contested one offers HOLD. The running test in CLAIM takes the held notice: with all its claims HELD it goes
on to DRAIN while its take is SENT, and with its take GIVEN it connects and calibrates, measures or is CONNECTED, or ends
with PORT where its port cannot be connected. An ACCESS test whose binder is HELD claims ACCESS and marks the binder
waiting (the HOLD is offered before the CLAIM: the model's choice, log entry 32). A claim that is not settling stays as
it is (the model's choice, log entries 2 and 15). -/
def Obligations.SettledClaimBecomesHeld : Prop :=
  ∀ (s : State) (r : ResourceNo), s.settled = true →
    let c := s.claimOf r
    let result := exec (.settleEnd r) s
    let entry : ClaimEntry := { c with
      own := .held, holder := some s.csu.address, stamp := c.ownStamp, lastRefresh := s.uls.f, silence := 0,
      settle := 0, refresh := 0, unused := 0, markedWaiting := false }
    let held := if c.contested then (s.setClaim r entry).offer (.hold r c.ownStamp) else s.setClaim r entry
    (c.own ≠ .settling → result = .next s) ∧
    (c.own = .settling → ∀ x, s.tsq.running = some x → x.phase = .claim →
      let p := x.entry.port
      let b := s.binderOf p
      let goesOn (u : State) (y : RunningTest) : Prop := result = .next (u.setTsq { s.tsq with running := some y })
      let endsWithPort : Prop := s.runsAlone x → ∃ t, result = .next t ∧ s.testEnded t x (some .port)
      (r = b → x.entry.kind ≠ .access → s.pvu.accessWanted = false →
        (x.take = .sent → goesOn held { x with phase := .drain, stage := .notBegun }) ∧
        (x.take = .given → s.frontEndFree p = true →
          (1024 ≤ s.mfe.age → s.mfe.activity = .idle → s.mfe.source = .off →
            goesOn ((held.connectFrontEnd p).setMfe { s.mfe with connected := some p, activity := .calibrating 1 0 })
              { x with phase := .calibrate, stage := .notBegun }) ∧
          (s.mfe.age < 1024 → ∀ w, x.entry.kind.steps[x.step - 1]? = some (.voltage, w) → 1 ≤ x.step →
            goesOn ((held.connectFrontEnd p).setMfe { s.mfe with
                connected := some p, source := .off, activity := .measuring, charge := .idle })
              { x with phase := .step, stage := .settling 2 })) ∧
        (x.take = .given → s.frontEndFree p = false → endsWithPort)) ∧
      (r = b → x.entry.kind = .access → s.pvu.accessWanted = true → (s.claimOf accessBus).own = .none →
        (s.claimOf accessBus).holder = none →
        ∃ t, result = .next t ∧ t.claimOf b = { entry with markedWaiting := true } ∧
          t.claimOf accessBus = { s.claimOf accessBus with
            own := .settling, ownStamp := s.uls.f, settle := 4, contested := false } ∧
          t.pbi = (held.offer (.claim accessBus s.uls.f)).pbi ∧ t.tsq = s.tsq ∧ t.ptc = s.ptc ∧ t.mfe = s.mfe) ∧
      (r = accessBus → x.entry.kind = .access → (s.claimOf b).own = .held →
        let freed := held.setClaim b { s.claimOf b with markedWaiting := false }
        let free := (s.port p).state = .inTest ∧ (s.port p).returnState = none ∧ (s.port p).relayFrontEnd = false ∧
          ∀ q, q ≠ p → (s.port q).relayAccess = false
        (x.take = .sent → goesOn freed { x with phase := .drain, stage := .notBegun }) ∧
        (x.take = .given → free →
          let u := freed.setPort p { s.port p with relayAccess := true }
          goesOn
            (if x.reported = true ∨ x.entry.requester = 0 then u
              else u.offer (.testReport (natByte x.entry.requester)
                { requester := x.entry.requester, tag := x.entry.tag, port := p, kind := .access, type := .connected,
                  verdict := .pass, fail := FailSet.empty, values := [], cause := none, start := x.start,
                  finish := s.uls.f }))
            { x with phase := .connected, reported := true }) ∧
        (x.take = .given → ¬ free → endsWithPort)))

/-- R34, R36, R38: what the counts of a claim bring: HOLD at a refresh; at a lapse RELEASE, a cleared view entry, WAITING
with a hold-off of 4 and the end of the ACCESS claim; at the end of a hold-off a fresh claim, unless a peer holds the
binder by then. A count of a claim that has none running changes nothing (the model's choice, log entries 2 and 15). -/
def Obligations.ClaimTimersAct : Prop :=
  ∀ s : State,
    (∀ r, (s.claimOf r).own = .held → exec (.holdRefresh r) s =
      .next ((s.setClaim r { s.claimOf r with refresh := 0 }).offer (.hold r (s.claimOf r).ownStamp))) ∧
    (∀ r, (s.claimOf r).own ≠ .held → exec (.holdRefresh r) s = .next s) ∧
    (∀ b : BinderNo, let r := binderResource b
      ((s.claimOf r).own = .held → (s.claimOf r).markedWaiting = true →
        ∃ t, exec (.claimLapse b) s = .next t ∧
          t.claimOf r = { s.claimOf r with
            own := .waiting, holdOff := some 4, markedWaiting := false, holder := none, stamp := 0, lastRefresh := 0,
            silence := 0 } ∧
          (t.claimOf accessBus).own = .none ∧ t.pvu.accessWanted = s.pvu.accessWanted ∧ t.tsq = s.tsq ∧
          t.pbi = (if (s.claimOf accessBus).own = .settling ∨ (s.claimOf accessBus).own = .held then
              ((s.offer (.release r)).offer (.release accessBus)).pbi
            else (s.offer (.release r)).pbi)) ∧
      ((s.claimOf r).own ≠ .held ∨ (s.claimOf r).markedWaiting = false → exec (.claimLapse b) s = .next s) ∧
      ((s.claimOf r).holdOff ≠ none → (s.claimOf r).own = .waiting →
        exec (.holdOffEnd b) s = .next
          (if (s.claimOf r).holder = none then
            (s.setClaim r { s.claimOf r with
              own := .settling, ownStamp := s.uls.f, settle := 4, contested := false, holdOff := none }).offer
                (.claim r s.uls.f)
          else s.setClaim r { s.claimOf r with holdOff := none })) ∧
      ((s.claimOf r).holdOff = none → exec (.holdOffEnd b) s = .next s))

/-! ### The allocation unit's requests -/

/-- R52, R53: a request starts when the unit is idle with nothing pending and waits otherwise, replacing a pending one of
its kind; at a completion the unit starts the pending port division, else the pending station share, else the pending
power share, whatever the order in which they arrived. A completion of a kind that is not in flight changes nothing (the
model's choice, log entries 2 and 15). -/
def Obligations.RequestsWaitAndStartByKind : Prop :=
  (∀ (s : State) (q : AuRequest),
    (s.au = ⟨none, none, none, none⟩ → (s.requestAu q).au = ⟨some q, none, none, none⟩) ∧
    (s.au.inFlight ≠ none → (s.requestAu q).au =
      match q.kind with
      | .portDivision => { s.au with pendingPort := some q }
      | .stationShare => { s.au with pendingShare := some q }
      | .powerShare => { s.au with pendingPower := some q })) ∧
  ∀ (s : State) (k : AuKind),
    (∀ q, s.au.inFlight = some q → q.kind = k →
      ∃ t, exec k.completion s = .next t ∧
        (∀ x, s.au.pendingPort = some x → t.au = { s.au with inFlight := some x, pendingPort := none }) ∧
        (∀ x, s.au.pendingPort = none → s.au.pendingShare = some x →
          t.au = { s.au with inFlight := some x, pendingShare := none }) ∧
        (∀ x, s.au.pendingPort = none → s.au.pendingShare = none → s.au.pendingPower = some x →
          t.au = { s.au with inFlight := some x, pendingPower := none }) ∧
        (s.au.pendingPort = none → s.au.pendingShare = none → s.au.pendingPower = none →
          t.au = ⟨none, none, none, none⟩)) ∧
    ((∀ q, s.au.inFlight = some q → q.kind ≠ k) → exec k.completion s = .next s)

/-! ### The grant map and the lane -/

/-- R81 to R83, R85 to R87: a port division in time lays each eligible port's slots, in order-list order, over the
usable list, and the segments of those slots go in flight; a late one only moves the rotation pointer. That equal
references alone make it in time, after a repeated late marker, too, is the model's choice (log entry 43). No port is
being drained. -/
def Obligations.DivisionInTimeBuildsTheMap : Prop :=
  ∀ (s : State) (q : AuRequest), s.settled = true → s.au.inFlight = some q → q.kind = .portDivision →
    ((∀ d, s.uls.division = some d → d.reference ≠ q.reference) →
      ∃ x, rotatesTo s.uls.rotation (q.requesters.map Requester.id) x ∧
        exec .portDivisionCompletion s = .next (s.setUls { s.uls with rotation := x }).nextAu) ∧
    ∀ d, s.uls.division = some d → d.reference = q.reference → s.noneDraining →
      ∃ t, exec .portDivisionCompletion s = .next t ∧ t.au = s.au.next ∧
        rotatesTo s.uls.rotation (q.requesters.map Requester.id) t.uls.rotation ∧ t.uls.division = none ∧
        (∀ k p, (k, p) ∈ t.uls.grantMap ↔ s.eligible p = true ∧
          ∃ before after i, d.order = before ++ p :: after ∧
            (before.map fun x => q.allocationTo x.val).sum ≤ i ∧
            i < (before.map fun x => q.allocationTo x.val).sum + q.allocationTo p.val ∧ d.usable[i]? = some k) ∧
        t.uls.granted = t.uls.grantMap.length ∧
        (s.poolOk = true → s.uls.inFlight = [] → d.order.Nodup → slotsOk d.usable = true →
          (∀ p ∈ d.order, s.eligible p = true → q.allocationTo p.val ≤ s.held p) →
          t.uls.inFlight.map (fun e => (e.slot, e.port)) = t.uls.grantMap ∧
          (∀ e ∈ t.uls.inFlight, e.frame = d.reference) ∧
          ∀ p, t.held p + (t.uls.grantMap.filter fun x => decide (x.2 = p)).length = s.held p) ∧
        t.pqm.free = s.pqm.free

/-- R86, R92, R99: a granted slot takes the port's oldest retransmit entry, with its attempt increased by 1, and otherwise
the next unsent segment of the head packet, with attempt 1 and the last flag on the final one. -/
def Obligations.SlotTakesTheOldestSegment : Prop :=
  ∀ (s : State) (p : PortNo) (frame : Half) (slot : Nat),
    (∀ before e after, s.uls.retransmit = before ++ e :: after → e.port = p → (∀ x ∈ before, x.port ≠ p) →
      s.fillSlot p frame slot = s.setUls { s.uls with
        retransmit := before ++ after,
        inFlight := insertInFlight ⟨p, e.packet, e.index, e.last, e.attempt + 1, slot, frame, e.payload⟩
          s.uls.inFlight }) ∧
    (s.retransmits p = 0 → ∀ r rest, (s.pq p).queue = r :: rest → r.ok = true →
      ∃ t segment, s.fillSlot p frame slot = t ∧
        segment = (⟨p, r.number, r.total - r.remaining, decide (r.total - r.remaining + 1 = r.total), 1, slot, frame,
          r.buffers.headD []⟩ : InFlightEntry) ∧
        t.uls = { s.uls with inFlight := insertInFlight segment s.uls.inFlight } ∧
        (t.pq p).queue = (if r.remaining = 1 then rest
          else { r with remaining := r.remaining - 1, buffers := r.buffers.tail } :: rest) ∧
        t.pqm.free = s.pqm.free) ∧
    (s.retransmits p = 0 → (s.pq p).queue = [] → s.fillSlot p frame slot = s)

/-- R73: a station share for the outstanding reference places the pending window after the allocations of the lower
addresses, for the epoch after the last cut, and offers its SPAN CLAIM; any other is disregarded. -/
def Obligations.StationSharePlacesTheWindow : Prop :=
  ∀ (s : State) (q : AuRequest) (e : EnginePart) (cut : Nat), s.au.inFlight = some q → q.kind = .stationShare →
    s.csu.engine = some e → s.uls.lastCut = some cut →
    let epoch := (cut + 1) % 8192
    let start := e.reserved + ((q.allocations.filter fun a => decide (a.1 < s.csu.address)).map Prod.snd).sum
    let len := q.allocationTo s.csu.address
    (s.uls.shareRef = some q.reference →
      exec .stationShareCompletion s =
        .next ((s.setUls { s.uls with pendingWindow := some ⟨epoch, ⟨start, len⟩⟩, shareRef := none }).offer
          (.spanClaim (natHalf epoch) (natByte start) (natByte len))).nextAu) ∧
    (s.uls.shareRef ≠ some q.reference → exec .stationShareCompletion s = .next s.nextAu)

/-- R58, R61, R62, R64 to R66, R69, R80, R85, R88 to R91, R94, R167: a marker whose check fails changes nothing. A valid one
that is not late sets F, the number of the last marker, the miss count, the timer period and the sync state, and gives one
sample of the bus voltage. Where nothing else falls due at it, its status list settles the in-flight entries, a numbering
jump releases them as unconfirmed (log entry 34), every block's counts advance, and in RUN and SYNC the frame's division is
requested. -/
def Obligations.MarkerAdvancesTheFrame : Prop :=
  ∀ (s : State) (number : Half) (status : Vector Byte 32) (check : Half) (elapsed : Nat) (readings : Readings),
    let right := messageCheck (halfBytes number ++ status.toList) = check
    let jump := s.uls.sync = .sync ∧ number ≠ s.uls.f + 1
    (¬ right → exec (.frameMarker number status check elapsed readings) s = .next s) ∧
    (right → ¬ (number = s.uls.f ∧ s.uls.timerAdvanced = true) →
      ∃ t, exec (.frameMarker number status check elapsed readings) s = .next t ∧
        t.uls.f = number ∧ t.uls.lastMarker = some number ∧ t.uls.miss = 0 ∧ t.uls.timerAdvanced = false ∧
        (s.uls.lastMarker = some (number - 1) ∧ 500 ≤ elapsed ∧ elapsed ≤ 2000 →
          t.uls.period = elapsed + elapsed / 8) ∧
        (s.uls.lastMarker ≠ some (number - 1) ∨ elapsed < 500 ∨ 2000 < elapsed → t.uls.period = s.uls.period) ∧
        (s.uls.sync = .nosync ∨ s.uls.sync = .lost → t.uls.sync = .resync) ∧
        (s.uls.sync = .resync → t.uls.sync =
          if s.uls.shareEpoch ≠ number.toNat / 8 ∧ ∃ w, s.uls.pendingWindow = some w ∧ w.epoch = number.toNat / 8 then .sync
          else .resync) ∧
        (s.uls.sync = .sync → t.uls.sync =
          if number ≠ s.uls.f + 1 ∧ (number.toNat / 8 ≠ s.uls.f.toNat / 8 ∨ stampEarlier s.uls.f number = false) then
            .resync
          else .sync) ∧
        t.uls.shareEpoch = number.toNat / 8 ∧
        t.pmg.samples = (s.pmg.samples ++ [readings.bus]).drop (s.pmg.samples.length + 1 - 64) ∧
        t.csu = s.csu ∧
        (s.nothingDueAt number →
          s.countedTo t readings.bus ∧ t.uls.inFlight = [] ∧ (jump → s.releasedAll t) ∧
          (¬ jump → (∀ e ∈ s.uls.inFlight, number = e.frame + 1) → s.statusTaken t status) ∧
          (¬ jump → (∀ e ∈ s.uls.inFlight, number ≠ e.frame + 1) → s.releasedAll t) ∧
          (s.csu.state = .run → t.uls.sync = .sync → s.asksDivision t number) ∧
          (s.csu.state ≠ .run ∨ t.uls.sync ≠ .sync → t.uls.division = none ∧ t.au = s.au)))

/-- R63, R65, R68, R80, R88 to R91, R94, R167: a late marker is no frame advance: F, the claims, the cells, the tests,
the front end, the samples, the drain counts and the epoch actions stay as they were. Its status list finishes the
delivered segments, returns the failed ones to the retransmit list until their third attempt, and releases them all as
unconfirmed when it is not the status of their frame; it leads out of NOSYNC and LOST to RESYNC, where no window is
left; in RUN and SYNC the frame's division is requested from the eligible ports and the usable slots. That a second
marker of the frame is late, too, is read from R63 by inference (log entry 28). -/
def Obligations.LateMarkerTakesTheStatus : Prop :=
  ∀ (s : State) (status : Vector Byte 32) (check : Half) (elapsed : Nat) (readings : Readings),
    messageCheck (halfBytes s.uls.f ++ status.toList) = check → s.uls.timerAdvanced = true →
    ∃ t, exec (.frameMarker s.uls.f status check elapsed readings) s = .next t ∧
      t.uls.f = s.uls.f ∧ t.uls.miss = 0 ∧ t.uls.timerAdvanced = true ∧ t.uls.inFlight = [] ∧ t.uls.grantMap = [] ∧
      t.uls.sync = (if s.uls.sync = .nosync ∨ s.uls.sync = .lost then .resync else s.uls.sync) ∧
      (s.uls.sync = .resync ∨ s.uls.sync = .sync → t.uls.current = s.uls.current ∧
        t.uls.pendingWindow = s.uls.pendingWindow ∧ t.uls.shareRef = s.uls.shareRef) ∧
      (s.uls.sync = .nosync ∨ s.uls.sync = .lost →
        t.uls.current = none ∧ t.uls.pendingWindow = none ∧ t.uls.shareRef = none) ∧
      t.uls.shareEpoch = s.uls.shareEpoch ∧ t.uls.lastCut = s.uls.lastCut ∧
      t.uls.ownDemand = s.uls.ownDemand ∧ t.uls.admitted = s.uls.admitted ∧ t.uls.coverage = s.uls.coverage ∧
      t.csu = s.csu ∧ t.pbi = s.pbi ∧ t.pvu = s.pvu ∧ t.ptc = s.ptc ∧ t.leu = s.leu ∧ t.tsq = s.tsq ∧ t.mfe = s.mfe ∧
      t.pmg = s.pmg ∧ (∀ p, t.pq p = { s.pq p with counters := (t.pq p).counters }) ∧
      ((∀ e ∈ s.uls.inFlight, s.uls.f = e.frame + 1) → s.statusTaken t status) ∧
      ((∀ e ∈ s.uls.inFlight, s.uls.f ≠ e.frame + 1) → s.releasedAll t) ∧
      (s.csu.state = .run → s.uls.sync = .sync → s.asksDivision t s.uls.f) ∧
      (s.csu.state ≠ .run ∨ s.uls.sync ≠ .sync → t.uls.division = none ∧ t.au = s.au)

/-- R61, R64, R65, R67, R69, R94: an expiry of the frame timer advances F by 1, counts a miss, clears the grant map, and
at the third miss in a row in RESYNC or SYNC leads to LOST, where no window and no in-flight entry is left. Where nothing
else falls due at it, every block's counts advance and no division is requested. SYNC_LOST alone does the same to the sync
state, the windows and the in-flight list, and nothing in NOSYNC or LOST (the model's choice, log entries 2 and 15). -/
def Obligations.TimerExpiryCountsAMiss : Prop :=
  (∀ (s : State) (readings : Readings), ∃ t, exec (.frameTimerExpiry readings) s = .next t ∧
    t.uls.f = s.uls.f + 1 ∧ t.uls.miss = min 3 (s.uls.miss + 1) ∧ t.uls.timerAdvanced = true ∧
    t.uls.period = s.uls.period ∧ t.uls.lastMarker = s.uls.lastMarker ∧ t.uls.grantMap = [] ∧ t.uls.division = none ∧
    (2 ≤ s.uls.miss → s.uls.sync = .resync ∨ s.uls.sync = .sync →
      t.uls.sync = .lost ∧ t.uls.inFlight = [] ∧ t.uls.current = none ∧ t.uls.pendingWindow = none ∧
        t.uls.shareRef = none) ∧
    (s.uls.miss < 2 → s.uls.sync = .sync → t.uls.sync = .sync) ∧
    (s.uls.miss < 2 → s.uls.sync = .resync → t.uls.sync = .resync ∨ t.uls.sync = .sync) ∧
    (s.uls.sync = .nosync → t.uls.sync = .nosync) ∧ (s.uls.sync = .lost → t.uls.sync = .lost) ∧
    (s.nothingDueAt (s.uls.f + 1) → s.countedTo t readings.bus ∧ t.au = s.au)) ∧
  ∀ s : State,
    (s.uls.sync = .resync ∨ s.uls.sync = .sync → ∃ t, exec .syncLost s = .next t ∧
      t.uls = { s.uls with
        miss := 3, sync := .lost, current := none, pendingWindow := none, shareRef := none, grantMap := [],
        division := none, inFlight := [] } ∧
      t.pqm.free = s.pqm.free + s.uls.inFlight.length ∧
      ∀ p, (t.pq p).counters = { (s.pq p).counters with
        unconfirmed := satAdd (s.pq p).counters.unconfirmed (s.flying p fun _ => True) }) ∧
    (s.uls.sync = .nosync ∨ s.uls.sync = .lost → exec .syncLost s = .next s)

/-- R69 to R71, R75: at an epoch start the pending window of the new epoch becomes current and takes RESYNC to SYNC, the
coverage counts are rebuilt, the own demand is the ceiling of an eighth of what is held and was admitted, at most the
capacity, and DEMAND is offered in RUN, RESYNC or SYNC. Without a change of F div 8 nothing happens (the model's choice,
log entries 2 and 15). -/
def Obligations.EpochStartTurnsTheWindows : Prop :=
  ∀ (s : State) (e : EnginePart), s.csu.engine = some e → s.csu.state = .run → s.peersOk = true →
    let epoch := s.uls.f.toNat / 8
    (s.uls.shareEpoch = epoch → exec .epochStart s = .next s) ∧
    (s.uls.shareEpoch ≠ epoch → ∃ t, exec .epochStart s = .next t ∧
      (∀ w, s.uls.pendingWindow = some w → w.epoch = epoch → t.uls.current = some w.window ∧
        t.uls.sync = if s.uls.sync = .resync then .sync else s.uls.sync) ∧
      ((∀ w, s.uls.pendingWindow = some w → w.epoch ≠ epoch) →
        t.uls.current = none ∧ t.uls.sync = s.uls.sync) ∧
      t.uls.pendingWindow = none ∧ t.uls.shareRef = none ∧ t.uls.admitted = 0 ∧ t.uls.shareEpoch = epoch ∧
      t.uls.coverage = (List.range 128).map t.coverersOf ∧
      t.uls.ownDemand = min (128 - e.reserved)
        ((((allPorts.filter s.eligible).map s.held).sum + s.uls.admitted + 7) / 8) ∧
      t.pbi = (if t.uls.sync = .resync ∨ t.uls.sync = .sync then
          (s.offer (.demand (natHalf epoch) (natByte t.uls.ownDemand) (natByte e.weight))).pbi
        else s.pbi) ∧
      t.pqm = s.pqm ∧ t.pvu = s.pvu ∧ t.tsq = s.tsq)

/-- R72: a share cut that is due requests a station share of the engine and every peer with a valid demand part, in
ascending address, and records its epoch and its reference; one that is not due does nothing (the model's choice, log
entries 2 and 15). -/
def Obligations.ShareCutRequestsTheShare : Prop :=
  ∀ (s : State) (e : EnginePart), s.csu.engine = some e → s.peersOk = true →
    let due := s.csu.state = .run ∧ (s.uls.sync = .resync ∨ s.uls.sync = .sync) ∧ 4 ≤ s.uls.f.toNat % 8 ∧
      s.uls.lastCut ≠ some (s.uls.f.toNat / 8)
    (¬ due → exec .shareCut s = .next s) ∧
    (due → ∃ q, exec .shareCut s = .next ((s.setUls { s.uls with
        lastCut := some (s.uls.f.toNat / 8), shareRef := some s.uls.f }).requestAu q) ∧
      q.kind = .stationShare ∧ q.reference = s.uls.f ∧ q.capacity = 128 - e.reserved ∧
      q.order = q.requesters.map Requester.id ∧ (q.requesters.Pairwise fun a b => a.id < b.id) ∧
      ∀ r, r ∈ q.requesters ↔ r = ⟨s.csu.address, s.uls.ownDemand, e.weight⟩ ∨
        ∃ x ∈ s.pvu.peers, ∃ d, x.demand = some d ∧ d.age ≤ 4 ∧ r = ⟨x.address, d.demand, d.weight⟩)

/-! ### Packets -/

/-- R59, R105: a downstream segment for this engine goes to its port's transceiver while the port is IN SERVICE or
DRAINING with its link up, and is otherwise dropped and counted; any other segment is ignored. What the transceiver
receives is shown in the field `delivered`, the model's own (log entry 21). -/
def Obligations.DownstreamSegmentsAreDeliveredOrCounted : Prop :=
  ∀ (s : State) (station port len : Byte) (payload : List Byte) (check : Half), payload.length = len.toNat →
    let mine := messageCheck (station :: port :: len :: payload) = check ∧ station.toNat = s.csu.address ∧
      1 ≤ len.toNat ∧ len.toNat ≤ 64
    (¬ mine ∨ 12 ≤ port.toNat → exec (.downstreamSegment station port len payload check) s = .next s) ∧
    (mine → ∀ p : PortNo, p.val = port.toNat →
      ((s.port p).state.serving = true → (s.port p).link = true →
        exec (.downstreamSegment station port len payload check) s = .next { s with delivered := some (p, payload) }) ∧
      ((s.port p).state.serving = false ∨ (s.port p).link = false →
        exec (.downstreamSegment station port len payload check) s = .next (s.setPq p { s.pq p with
          counters := { (s.pq p).counters with
            downstreamDropped := satInc (s.pq p).counters.downstreamDropped } })))

/-- R97: an arriving packet is judged whole, by its port's state, its port's limit and the pool in turn; the first that
fails drops and counts it, and otherwise it is admitted, cut into buffers of 64 bytes and a last one of 1 to 64. A
delivery of 0 bytes is ignored. -/
def Obligations.PacketsAreAdmittedOrDropped : Prop :=
  ∀ (s : State) (p : PortNo) (data : List Byte),
    let n := (data.length + 63) / 64
    let q := s.pq p
    let dropped (c : PortCounters) : State := s.setPq p { q with counters := c }
    let full := 1536 < data.length ∨ (s.part p).limit < s.queued p + s.retransmits p + n
    (data = [] → exec (.packetArrival p data) s = .next s) ∧
    (data ≠ [] → (s.port p).state ≠ .inService → exec (.packetArrival p data) s =
      .next (dropped { q.counters with notInService := satInc q.counters.notInService })) ∧
    (data ≠ [] → (s.port p).state = .inService → full → exec (.packetArrival p data) s =
      .next (dropped { q.counters with portLimit := satInc q.counters.portLimit })) ∧
    (data ≠ [] → (s.port p).state = .inService → ¬ full → s.pqm.free < n → exec (.packetArrival p data) s =
      .next (dropped { q.counters with poolEmpty := satInc q.counters.poolEmpty })) ∧
    (data ≠ [] → (s.port p).state = .inService → ¬ full → n ≤ s.pqm.free →
      ∃ t r, exec (.packetArrival p data) s = .next t ∧ t.pqm.free = s.pqm.free - n ∧
        t.pq p = { q with queue := q.queue ++ [r], next := q.next + 1 } ∧
        r = ⟨q.next, data.length, n, n, s.uls.f, r.buffers⟩ ∧ r.buffers.flatten = data ∧ r.buffers.length = n ∧
        (∀ b ∈ r.buffers.dropLast, b.length = 64) ∧ (∀ b ∈ r.buffers, 1 ≤ b.length ∧ b.length ≤ 64) ∧
        (∀ x, x ≠ p → t.pq x = s.pq x) ∧ t.uls = { s.uls with admitted := min 65535 (s.uls.admitted + n) })

/-! ### Ports -/

/-- R115 to R120: what a shed, a restore, an isolate, an unisolate and a return make of a port, by its state: the
state it enters, its return state, its shed-pending flag, and whether its queues are kept. That the flag is cleared when
the port leaves the states it belongs to is read from the tables by inference (log entry 19). -/
def Obligations.PortRequestsFollowTheirTables : Prop :=
  ∀ (s : State) (p : PortNo), s.portsOk = true →
    let r := s.port p
    let kept (t : State) : Prop := (t.pq p).queue = (s.pq p).queue ∧ t.retransmits p = s.retransmits p
    let gone (t : State) : Prop := (t.pq p).queue = [] ∧ t.retransmits p = 0 ∧ t.pqm.free = s.pqm.free + s.held p ∧
      (t.pq p).counters = { (s.pq p).counters with discarded := satAdd (s.pq p).counters.discarded (s.held p) }
    let is (t : State) (st : PortState) (back : Option ReturnState) (pending : Bool) : Prop :=
      (t.port p).state = st ∧ (t.port p).returnState = back ∧ (t.port p).shedPending = pending
    let drains (t : State) (reason : DrainReason) : Prop :=
      is t (.draining reason) none false ∧ kept t ∧ (t.pq p).drainCount = 16 ∧ (t.port p).link = r.link
    (r.state = .unfitted →
      s.shed p = s ∧ s.shedAtOnce p = (s, false) ∧ (∀ k, s.restore p k = (s, none)) ∧ s.isolate p = (s, .none) ∧
      s.returnPort p = s) ∧
    (r.state = .inService →
      (1 ≤ s.held p → drains (s.shed p) .shed) ∧
      (s.held p = 0 → is (s.shed p) .off none false) ∧
      is (s.shedAtOnce p).1 .off none false ∧ gone (s.shedAtOnce p).1 ∧ (s.shedAtOnce p).2 = false ∧
      is (s.isolate p).1 .isolated (some .inService) false ∧ kept (s.isolate p).1 ∧
      s.returnPort p = s ∧ ∀ k, s.restore p k = (s, none)) ∧
    (r.state = .draining .test →
      s.shed p = s.setPort p { r with shedPending := true } ∧
      (∀ k, s.restore p k = (s.setPort p { r with shedPending := false }, none)) ∧
      is (s.shedAtOnce p).1 .off none false ∧ gone (s.shedAtOnce p).1 ∧ (s.shedAtOnce p).2 = true ∧
      is (s.isolate p).1 .isolated (some (if r.shedPending then .off else .inService)) false ∧ kept (s.isolate p).1 ∧
      (s.isolate p).2 = .withdrawn ∧
      (s.pmg.tier = 4 → is (s.returnPort p) .off none false ∧ gone (s.returnPort p)) ∧
      (s.pmg.tier ≠ 4 → r.shedPending = false →
        is (s.returnPort p) .inService none false ∧ kept (s.returnPort p) ∧
          ((s.returnPort p).port p).link = r.link) ∧
      (s.pmg.tier ≠ 4 → r.shedPending = true →
        (1 ≤ s.held p → drains (s.returnPort p) .shed) ∧
        (s.held p = 0 → is (s.returnPort p) .off none false))) ∧
    (r.state = .draining .shed →
      s.shed p = s ∧ s.returnPort p = s.setPort p { r with takeWaiting := false } ∧
      (r.takeWaiting = false → ∀ k, (s.restore p k).2 = none ∧ is (s.restore p k).1 .inService none false ∧
        kept (s.restore p k).1 ∧ ((s.restore p k).1.port p).link = r.link) ∧
      (r.takeWaiting = true → ∀ k,
        ((s.restore p k).1.port p).takeWaiting = false ∧
        (1 ≤ s.held p → (s.restore p k).2 = some false ∧ drains (s.restore p k).1 .test) ∧
        (s.held p = 0 → (s.restore p k).2 = some true ∧ is (s.restore p k).1 .inTest none false)) ∧
      is (s.shedAtOnce p).1 .off none false ∧ gone (s.shedAtOnce p).1 ∧ (s.shedAtOnce p).2 = r.takeWaiting ∧
      is (s.isolate p).1 .isolated (some .off) false ∧ kept (s.isolate p).1 ∧
      (s.isolate p).2 = if r.takeWaiting then .withdrawn else .none) ∧
    (r.state = .inTest → r.returnState = none →
      s.shed p = s.setPort p { r with shedPending := true } ∧
      (∀ k, (s.restore p k).1 = s.setPort p { r with shedPending := false }) ∧
      is (s.shedAtOnce p).1 .off none false ∧ gone (s.shedAtOnce p).1 ∧ (s.shedAtOnce p).2 = true ∧
      s.isolate p = (s.setPort p { r with
        returnState := some (if r.shedPending then .off else .inService), shedPending := false, takeWaiting := false,
        relayAccess := false }, .inForce) ∧
      ((s.line p).fvdLevel = true → is (s.returnPort p) .isolated
        (some (if r.shedPending = true ∨ s.pmg.tier = 4 then .off else .inService)) false ∧ kept (s.returnPort p)) ∧
      ((s.line p).fvdLevel = false → r.shedPending = true ∨ s.pmg.tier = 4 →
        is (s.returnPort p) .off none false ∧ gone (s.returnPort p)) ∧
      ((s.line p).fvdLevel = false → r.shedPending = false → s.pmg.tier ≠ 4 →
        is (s.returnPort p) .inService none false ∧ kept (s.returnPort p) ∧
          ((s.returnPort p).port p).link = false)) ∧
    (∀ back, r.state = .inTest → r.returnState = some back →
      s.shed p = s.setPort p { r with returnState := some .off } ∧
      (∀ k, (s.restore p k).1 = s.setPort p { r with returnState := some .inService }) ∧ s.isolate p = (s, .none) ∧
      is (s.shedAtOnce p).1 .isolated (some .off) false ∧ kept (s.shedAtOnce p).1 ∧ (s.shedAtOnce p).2 = true ∧
      is (s.returnPort p) .isolated (some back) false ∧ kept (s.returnPort p)) ∧
    (∀ back, r.state = .isolated → r.returnState = some back →
      s.shed p = s.setPort p { r with returnState := some .off } ∧
      s.shedAtOnce p = (s.setPort p { r with returnState := some .off }, false) ∧
      (∀ k, s.restore p k = (s.setPort p { r with returnState := some .inService }, none)) ∧
      s.isolate p = (s, .none) ∧ s.returnPort p = s ∧
      (back = .inService → is (s.unisolate p) .inService none false ∧ kept (s.unisolate p) ∧
        ((s.unisolate p).port p).link = false) ∧
      (back = .off → is (s.unisolate p) .off none false ∧ gone (s.unisolate p))) ∧
    (r.state ≠ .isolated → s.unisolate p = s) ∧
    (r.state = .off → s.shed p = s ∧ s.shedAtOnce p = (s, false) ∧ s.returnPort p = s ∧
      (∀ k, (s.restore p k).2 = none ∧ is (s.restore p k).1 .inService none false ∧
        ((s.restore p k).1.port p).link = false) ∧
      is (s.isolate p).1 .isolated (some .off) false ∧ (s.isolate p).2 = .none)

/-- R113, R139: the PTC's answer to a take, by the port's state. -/
def Obligations.TakesAreAnsweredByState : Prop :=
  ∀ (s : State) (p : PortNo) (k : TestKind), s.portsOk = true →
    let r := s.port p
    (r.state = .unfitted ∨ r.state = .draining .test ∨ r.state = .inTest → s.take p k = (s, .refused)) ∧
    (r.state = .draining .shed → s.take p k = (s.setPort p { r with takeWaiting := true }, .waits)) ∧
    (r.state = .isolated → k ≠ .fv → s.take p k = (s, .refused)) ∧
    (r.state = .off ∨ (r.state = .isolated ∧ k = .fv) ∨ (r.state = .inService ∧ s.held p = 0) →
      ∃ t, s.take p k = (t, .given) ∧ (t.port p).state = .inTest ∧ (t.port p).returnState = r.returnState ∧
        (t.port p).shedPending = r.shedPending ∧ (t.port p).link = false) ∧
    (r.state = .inService → 1 ≤ s.held p →
      ∃ t, s.take p k = (t, .draining) ∧ (t.port p).state = .draining .test ∧ (t.pq p).drainCount = 16 ∧
        (t.port p).link = r.link ∧ (t.pq p).queue = (s.pq p).queue)

/-- R101, R102, R104, R114, R139, R142, R145: a drain for SHED ends in OFF with the queues discarded and counted, and
with a take waiting goes on to IN TEST at the same event: the take is GIVEN, and the test requests its claims, an ACCESS
test noting that ACCESS is wanted; it has claimed nothing before. A drain for TEST ends in IN TEST with the queues held.
A test in CLAIM is told that its take is GIVEN and stays there. A test in DRAIN goes on at the same event: it is
connected and calibrates when the last good calibration is 1024 frames or more old, begins its step when it is younger,
or is CONNECTED and reports it, and it ends with PORT where its port cannot be connected. A step that needs the source
begins where the source is allowed. A port that is not DRAINING is left alone (the model's choice, log entries 2 and
15). -/
def Obligations.DrainEndMovesThePort : Prop :=
  ∀ (s : State) (p : PortNo), s.settled = true →
    ((s.port p).state.isDraining = false → exec (.drainEnd p) s = .next s) ∧
    ((s.port p).state = .draining .shed → (s.port p).takeWaiting = false →
      ∃ t, exec (.drainEnd p) s = .next t ∧ (t.port p).state = .off ∧ (t.port p).link = false ∧
        (t.port p).relayTransceiver = false ∧ (t.pq p).queue = [] ∧ t.retransmits p = 0 ∧ (t.pq p).drainCount = 0 ∧
        t.pqm.free = s.pqm.free + s.held p ∧
        (t.pq p).counters.discarded = satAdd (s.pq p).counters.discarded (s.held p) ∧
        (∀ x ∈ t.uls.grantMap, x.2 ≠ p) ∧ t.uls.inFlight = s.uls.inFlight ∧ t.tsq = s.tsq ∧
        ∀ x, x ≠ p → t.port x = s.port x ∧ t.pq x = s.pq x) ∧
    (∀ test : RunningTest, (s.port p).state = .draining .test → s.tsq.running = some test → test.entry.port = p →
      test.phase = .claim → test.take = .sent →
      ∃ t, exec (.drainEnd p) s = .next t ∧ (t.port p).state = .inTest ∧ (t.port p).link = false ∧
        (t.port p).relayTransceiver = false ∧ (t.pq p).queue = (s.pq p).queue ∧
        t.uls.retransmit = s.uls.retransmit ∧ (t.pq p).drainCount = 0 ∧ t.pqm.free = s.pqm.free ∧
        (∀ x ∈ t.uls.grantMap, x.2 ≠ p) ∧ t.tsq = { s.tsq with running := some { test with take := .given } } ∧
        ∀ x, x ≠ p → t.port x = s.port x) ∧
    (∀ test : RunningTest, (s.port p).state = .draining .test → s.tsq.running = some test → test.entry.port = p →
      test.phase = .drain →
      let r := s.port p
      let arrived : PortRecord :=
        { r with state := .inTest, takeWaiting := false, link := false, relayTransceiver := false }
      let given : RunningTest := { test with take := .given }
      let goesOn (record : PortRecord) (m : Mfe) (b : Pbi) (y : RunningTest) : Prop :=
        ∃ t, exec (.drainEnd p) s = .next t ∧ t.port p = record ∧ t.mfe = m ∧ t.pbi = b ∧ t.pvu = s.pvu ∧
          t.tsq = { s.tsq with running := some y } ∧ t.pq p = { s.pq p with drainCount := 0 } ∧
          t.pqm.free = s.pqm.free ∧ t.uls.retransmit = s.uls.retransmit ∧ (∀ x ∈ t.uls.grantMap, x.2 ≠ p) ∧
          ∀ x, x ≠ p → t.port x = s.port x ∧ t.pq x = s.pq x
      let endsWithPort : Prop := s.runsAlone test → ∃ t, exec (.drainEnd p) s = .next t ∧ s.testEnded t test (some .port)
      let frontFree := r.relayAccess = false ∧ ∀ q, q ≠ p → (s.port q).relayFrontEnd = false
      let accessFree := r.returnState = none ∧ r.relayFrontEnd = false ∧ (∀ q, q ≠ p → (s.port q).relayAccess = false) ∧
        (s.claimOf (s.binderOf p)).own = .held ∧ (s.claimOf accessBus).own = .held
      (test.entry.kind ≠ .access → frontFree →
        (1024 ≤ s.mfe.age → s.mfe.activity = .idle → s.mfe.source = .off →
          goesOn { arrived with relayFrontEnd := true } { s.mfe with connected := some p, activity := .calibrating 1 0 }
            s.pbi { given with phase := .calibrate, stage := .notBegun }) ∧
        (s.mfe.age < 1024 → 1 ≤ test.step → ∀ k w, test.entry.kind.steps[test.step - 1]? = some (k, w) →
          k = .voltage ∨ (r.returnState = none ∧ (s.line p).fvdLevel = false ∧ s.pmg.tier.val < 3 ∧
            (s.claimOf (s.binderOf p)).own = .held) →
          goesOn { arrived with relayFrontEnd := true } { s.mfe.begun k with connected := some p } s.pbi
            { given with phase := .step, stage := .settling k.frames })) ∧
      (test.entry.kind ≠ .access → ¬ frontFree → endsWithPort) ∧
      (test.entry.kind = .access → accessFree →
        goesOn { arrived with relayAccess := true } s.mfe
          (if test.reported = true ∨ test.entry.requester = 0 then s.pbi
            else (s.offer (.testReport (natByte test.entry.requester)
              { requester := test.entry.requester, tag := test.entry.tag, port := p, kind := .access, type := .connected,
                verdict := .pass, fail := FailSet.empty, values := [], cause := none, start := test.start,
                finish := s.uls.f })).pbi)
          { given with phase := .connected, reported := true }) ∧
      (test.entry.kind = .access → ¬ accessFree → endsWithPort)) ∧
    ∀ test : RunningTest, (s.port p).state = .draining .shed → (s.port p).takeWaiting = true →
      s.tsq.running = some test → test.entry.port = p → test.take = .waiting →
      (∀ r, (s.claimOf r).own = .none) →
      let b := s.binderOf p
      ∃ t, exec (.drainEnd p) s = .next t ∧ (t.port p).state = .inTest ∧ (t.port p).takeWaiting = false ∧
        (t.port p).link = false ∧ (t.port p).relayTransceiver = false ∧ (t.pq p).queue = [] ∧ t.retransmits p = 0 ∧
        (t.pq p).drainCount = 0 ∧ t.pqm.free = s.pqm.free + s.held p ∧
        (t.pq p).counters.discarded = satAdd (s.pq p).counters.discarded (s.held p) ∧
        (∀ x ∈ t.uls.grantMap, x.2 ≠ p) ∧
        t.tsq = { s.tsq with running := some { test with take := .given, phase := .claim, stage := .notBegun } } ∧
        (∀ x, x ≠ p → t.port x = s.port x ∧ t.pq x = s.pq x) ∧
        t.pvu.accessWanted = (s.pvu.accessWanted || decide (test.entry.kind = .access)) ∧
        ((s.claimOf b).holder = none → t.pbi = (s.offer (.claim b s.uls.f)).pbi ∧ ∀ q, t.claimOf q =
          if q = b then { s.claimOf b with own := .settling, ownStamp := s.uls.f, settle := 4, contested := false }
          else s.claimOf q) ∧
        ((s.claimOf b).holder ≠ none → t.pbi = s.pbi ∧ ∀ q, t.claimOf q =
          if q = b then { s.claimOf b with own := .waiting } else s.claimOf q)

/-! ### Line events -/

/-- R84, R110, R122, R124, R125, R128 to R130, R137, R156: a change of the link of a serving port, and a resistance
below 20 kilohms or both above 25 where the ground-fault level was otherwise, is an edge of its cell; anything else
changes nothing (the model's choice, log entries 2 and 15). A chosen edge latches an edge cell, which asks for its test
when its priority and the engine state allow, and goes on as the answer says (of two entries of one lowest priority and
one arrival frame the one made last is displaced: the model's choice, log entry 47); a level cell asks while it is
pending and ready; any other cell stays. A cell in WAIT END asks again at the end notice, one in WAIT ROOM at a leave
notice. The leave notice and the selection that are due at the close of an event, `leaveDue`, `selectDue`,
`settleNotices` and `settleEvent`, are the model's own bookkeeping (by inference, log entry 10). The place of an entry
among arrival frames that have no order is the model's choice, too (log entries 37 and 51). -/
def Obligations.EdgesLatchAndAsk : Prop :=
  (∀ (s : State) (p : PortNo), s.settled = true →
    (∀ up : Bool, (s.port p).state.serving = false ∨ (s.port p).link = up → exec (.linkIndication p up) s = .next s) ∧
    (∀ up : Bool, (s.port p).state.serving = true → (s.port p).link ≠ up →
      exec (.linkIndication p up) s = .next
        (let t := s.setPort p { s.port p with link := up }
         let t := if up then t
           else t.setUls { s.uls with grantMap := s.uls.grantMap.filter fun x => decide (x.2 ≠ p) }
         (t.cellEdge p .link up).settleEvent)) ∧
    ∀ sensed : WireResistances,
      let falls := sensed.tip < 20000 ∨ sensed.ring < 20000
      let clears := 25000 < sensed.tip ∧ 25000 < sensed.ring
      let result := exec (.gfltEdge p sensed) s
      let edge (level : Bool) : Prop := result =
        .next ((s.setLine p { s.line p with gfltLevel := level }).cellEdge p .gflt level).settleEvent
      ((s.line p).gfltLevel = false → (falls → edge true) ∧ (¬ falls → result = .next s)) ∧
      ((s.line p).gfltLevel = true → (clears → edge false) ∧ (¬ clears → result = .next s))) ∧
  (∀ s : State, s.leu.leaveDue = false →
    (s.tsq.selectDue = false → s.settleEvent = s) ∧
    (s.tsq.running ≠ none → s.settleEvent = s.setTsq { s.tsq with selectDue := false })) ∧
  (∀ (s : State) (p : PortNo) (c : Condition) (level : Bool),
    let x := s.cell p c
    let t := s.cellEdge p c level
    let chosen := (x.mode = .rising ∧ level = true) ∨ (x.mode = .falling ∧ level = false) ∨ x.mode = .both
    let asks := 1 ≤ x.priority ∧ s.csu.state = .run ∧ (x.latched = true → x.request = .idle)
    let latched : Cell := { x with latched := true, seen := false }
    let ready := s.cellPending p c = true ∧ 1 ≤ x.priority ∧ s.csu.state = .run ∧ x.rearm = 4096
    (¬ chosen → x.mode.isLevel = false → t = s) ∧
    (chosen → ¬ asks → t = s.setCell p c latched) ∧
    (chosen → asks → s.cellAsked t p c latched) ∧
    (x.mode.isLevel = true → ¬ ready ∨ s.answerTo p c ≠ .queued → t = s) ∧
    (x.mode.isLevel = true → ready → s.answerTo p c = .queued →
      (s.tsq.queue.length < 16 → t = s.queuesCell p c) ∧ (16 ≤ s.tsq.queue.length → s.displaces t p c ∧ t.cell p c = x))) ∧
  (∀ (s : State) (p : PortNo) (c : Condition) (k : TestKind) (origin : Origin), k.condition? = some c →
    (s.cell p c).mode.isEdge = true →
    ((s.cell p c).request = .waitEnd → s.csu.state = .run → s.cellAsked (s.noticeEnd p k origin) p c (s.cell p c)) ∧
    ((s.cell p c).request ≠ .waitEnd → s.noticeEnd p k origin = s)) ∧
  ∀ (s : State) (p : PortNo) (c : Condition), s.leu.leaveDue = true → s.csu.state = .run →
    (s.cell p c).request = .waitRoom → 1 ≤ (s.cell p c).priority → (s.cell p c).priority ≤ 15 →
    (∀ q d, (s.cell q d).request = .waitRoom → q = p ∧ d = c) →
    let u := s.setLeu { s.leu with leaveDue := false }
    (s.answerTo p c = .full → s.settleNotices = u) ∧
    (s.answerTo p c = .queued → s.tsq.queue.length < 16 →
      s.settleNotices = (u.queuesCell p c).setCell p c { s.cell p c with request := .queued })

/-- R119, R120, R131, R132, R148, R149, R156: a peak above 65.00 V raises FVD, and a window with all three below 60.00 V
takes it down; any other window changes nothing (the model's choice, log entry 2). A rise brings the isolation of the
port into force at once, whatever the mode and priority of the cell: it keeps the queues and the way back and starts the
exit count afresh. A test on the port ends with ISOLATED, takes the port anew when it is FV, or goes on where it needs
no source. An isolation exit, which only an ISOLATED port with FVD false can have, takes the port to its return state.
The isolation comes before the cell's own edge (the model's choice, log entry 41). The close of the event,
`settleEvent`, is the model's own bookkeeping (by inference, log entry 10). -/
def Obligations.ForeignVoltageIsolates : Prop :=
  ∀ (s : State) (p : PortNo), s.settled = true → s.portsOk = true →
    let r := s.port p
    let low := (s.line p).fvdLevel = false
    (∀ v : LinePeaks,
      let above := 6500 < v.tipGround ∨ 6500 < v.ringGround ∨ 6500 < v.tipRing
      let below := v.tipGround < 6000 ∧ v.ringGround < 6000 ∧ v.tipRing < 6000
      let result := exec (.fvdEdge p v) s
      let back : ReturnState := if r.state = .inService ∨ (r.shedPending = false ∧
        (r.state = .inTest ∨ r.state = .draining .test)) then .inService else .off
      let isolated : PortRecord :=
        { state := .isolated, takeWaiting := false, shedPending := false, returnState := some back, link := false,
          relayTransceiver := false, relayFrontEnd := false, relayAccess := false }
      let inForce : PortRecord :=
        { r with returnState := some back, shedPending := false, takeWaiting := false, relayAccess := false }
      let noAsk := (s.cell p .fvd).mode = .none ∨ s.tsq.running ≠ none
      (low → ¬ above → result = .next s) ∧
      (¬ low → ¬ below → result = .next s) ∧
      (¬ low → below →
        result = .next ((s.setLine p { s.line p with fvdLevel := false }).cellEdge p .fvd false).settleEvent) ∧
      (low → above → s.csu.state = .unconfigured →
        ∃ t, result = .next t ∧ t.ptc = s.ptc ∧ (t.line p).fvdLevel = true ∧ (t.line p).exit = 0) ∧
      (low → above → s.csu.state ≠ .unconfigured →
        ((r.state = .inService ∨ r.state = .off ∨ (r.state = .draining .shed ∧ r.takeWaiting = false)) →
          ∃ t, result = .next t ∧ (t.port p).returnState = some back ∧
            ((t.port p).state = .isolated ∨ (t.port p).state = .inTest) ∧ (t.port p).link = false ∧
            (t.port p).relayTransceiver = false ∧ (t.port p).shedPending = false ∧ (t.line p).exit = 0 ∧
            (t.line p).fvdLevel = true ∧ (t.pq p).queue = (s.pq p).queue ∧
            (noAsk → t.port p = isolated ∧ t.uls.retransmit = s.uls.retransmit ∧ (t.pq p).drainCount = 0 ∧
              (∀ x ∈ t.uls.grantMap, x.2 ≠ p) ∧ ∀ x, x ≠ p → t.port x = s.port x) ∧
            ((s.cell p .fvd).mode = .none → t.tsq = s.tsq)) ∧
        (r.state = .isolated ∨ (r.state = .inTest ∧ r.returnState ≠ none) → noAsk →
          ∃ t, result = .next t ∧ t.ptc = s.ptc ∧ (t.line p).exit = 0 ∧ (t.line p).fvdLevel = true) ∧
        (∀ x, s.tsq.running = some x → x.entry.port = p →
          let sourced := ∃ k w, x.entry.kind.steps[x.step - 1]? = some (k, w) ∧ k ≠ .voltage
          (r.state = .inTest → r.returnState = none → x.entry.kind ≠ .access → ¬ sourced → 1 ≤ x.step →
            ∃ t, result = .next t ∧ t.port p = inForce ∧ t.tsq.running = some x) ∧
          (r.state = .inTest → r.returnState = none → x.entry.kind = .access ∨ sourced → 1 ≤ x.step →
            s.runsAlone x → (s.cell p .fvd).mode = .none →
            ∃ t, result = .next t ∧ s.testEnded t x (some .isolated) ∧ t.port p = isolated) ∧
          (r.state = .draining .test ∨ (r.state = .draining .shed ∧ r.takeWaiting = true) → s.pmg.tier.val < 3 →
            (x.entry.kind ≠ .fv → s.runsAlone x → (s.cell p .fvd).mode = .none →
              ∃ t, result = .next t ∧ s.testEnded t x (some .isolated) ∧ t.port p = isolated) ∧
            (x.entry.kind = .fv → x.take = .sent → x.phase = .claim →
              ∃ t, result = .next t ∧ (t.port p).state = .inTest ∧ (t.port p).returnState = some back ∧
                t.tsq.running = some { x with take := .given }))))) ∧
    (¬ low → exec (.isolationExit p) s = .next s) ∧
    (low → r.state ≠ .isolated → exec (.isolationExit p) s = .next s) ∧
    (low → r.state = .isolated → (s.cell p .link).mode.isLevel = false →
      ∃ t, exec (.isolationExit p) s = .next t ∧ (t.port p).returnState = none ∧ (t.port p).link = false ∧
        (r.returnState = some .inService →
          (t.port p).state = .inService ∧ (t.port p).relayTransceiver = true ∧ (t.pq p).queue = (s.pq p).queue) ∧
        (r.returnState = some .off → (t.port p).state = .off ∧ (t.pq p).queue = []))

/-- R123, R125 to R127, R184, R185: an EVENTS reply advances the report number, carries the set of pending cells and then
the set of seen ones, and marks what is latched as seen; a CLEAR EVENTS with that number
clears the listed cells that are latched and seen, and answers ACCEPTED; with another number STALE, with an unnamed port or
condition BAD VALUE, and in UNCONFIGURED UNCONFIGURED, it changes no cell. -/
def Obligations.EventsAreShownAndCleared : Prop :=
  ∀ (s : State) (src : Byte) (tag : Half), s.fromStation src = true →
    (∀ report pairs,
      let answer (t : State) (o : AnswerCode) : State := t.offer (.answer src 12 tag o 0)
      let named := ∀ x ∈ pairs, x.1.toNat < 12 ∧ x.2.toNat < 3
      (s.csu.state = .unconfigured → exec (.clearEvents src tag report pairs) s = .next (answer s .unconfigured)) ∧
      (s.csu.state ≠ .unconfigured → ¬ named →
        exec (.clearEvents src tag report pairs) s = .next (answer s .badValue)) ∧
      (s.csu.state ≠ .unconfigured → named → report ≠ s.leu.report →
        exec (.clearEvents src tag report pairs) s = .next (answer s .stale)) ∧
      (s.csu.state ≠ .unconfigured → named → report = s.leu.report →
        ∃ t, exec (.clearEvents src tag report pairs) s = .next (answer t .accepted) ∧
          t = s.setLeu { s.leu with ports := t.leu.ports } ∧
          (∀ p, (t.line p).fvdLevel = (s.line p).fvdLevel ∧ (t.line p).gfltLevel = (s.line p).gfltLevel ∧
            (t.line p).exit = (s.line p).exit) ∧
          ∀ p c, t.cell p c =
            if (natByte p.val, natByte c.code) ∈ pairs ∧ (s.cell p c).mode.isEdge = true ∧ (s.cell p c).latched = true ∧
                (s.cell p c).seen = true then
              { s.cell p c with latched := false, seen := false, request := .idle }
            else s.cell p c)) ∧
    (s.csu.state = .unconfigured →
      exec (.statusQueryEvents src tag) s = .next (s.offer (.answer src 10 tag .unconfigured 0))) ∧
    (s.csu.state ≠ .unconfigured →
      ∃ t contents, exec (.statusQueryEvents src tag) s = .next (t.offer (.statusReply src tag 2 contents)) ∧
        t = s.setLeu { s.leu with report := s.leu.report + 1, ports := t.leu.ports } ∧
        (∀ p, (t.line p).fvdLevel = (s.line p).fvdLevel ∧ (t.line p).gfltLevel = (s.line p).gfltLevel ∧
          (t.line p).exit = (s.line p).exit) ∧
        (∀ p c, t.cell p c = { s.cell p c with seen := (s.cell p c).seen || (s.cell p c).latched }) ∧
        contents.length = 11 ∧ contents.head? = some (s.leu.report + 1) ∧
        ∀ (p : PortNo) (c : Condition),
          let x := s.cell p c
          let n := 3 * p.val + c.code
          let high : Bool := match c with
            | .link => (s.port p).link
            | .fvd => (s.line p).fvdLevel
            | .gflt => (s.line p).gfltLevel
          let open' := c ≠ .link ∨ (s.port p).state.serving = true
          ((byteAt contents (5 - n / 8)).toNat.testBit (n % 8) = true ↔
            (x.mode.isEdge = true ∧ x.latched = true) ∨ (x.mode = .levelHigh ∧ open' ∧ high = true) ∨
              (x.mode = .levelLow ∧ open' ∧ high = false)) ∧
          ((byteAt contents (10 - n / 8)).toNat.testBit (n % 8) = true ↔ x.seen = true ∨ x.latched = true))

/-! ### Tests -/

/-- R135, R136: the outcome of a TEST ORDER is that of the first condition that holds, and an accepted one joins the
queue in its place (where the arrival frames of entries of one priority have no order, `insertEntry` makes the model's
choice, log entries 37 and 51), or takes over the automatic entry of its port and kind; the ANSWER carries the outcome
and the position. While a test runs nothing else follows. -/
def Obligations.TestOrdersAreAnsweredAndQueued : Prop :=
  ∀ (s : State) (src : Byte) (tag : Half) (port kind priority : Byte) (hold : Half), s.fromStation src = true →
    let result := exec (.testOrder src tag port kind priority hold) s
    let refused (o : AnswerCode) : Prop := result = .next (s.offer (.answer src 7 tag o 0))
    (s.csu.state = .unconfigured → refused .unconfigured) ∧ (s.csu.state = .conflict → refused .conflict) ∧
    (s.csu.state = .run → kind.toNat = 0 ∨ 5 < kind.toNat → refused .badKind) ∧
    (s.csu.state = .run → ∀ k : TestKind, kind.toNat = k.code →
      (12 ≤ port.toNat → refused .noPort) ∧
      ∀ p : PortNo, port.toNat = p.val →
        let here (e : QueueEntry) : Prop := e.port = p ∧ e.kind = k
        let isolated := (k = .ir ∨ k = .cap ∨ k = .full) ∧ (s.port p).state = .isolated
        let busy := s.active p k = true ∨ ∃ e, s.queued? p k = some e ∧ e.requester ≠ 0
        let prio := max 1 (min 15 priority.toNat)
        let time := if k = .access then max 1 (min 600 hold.toNat) else 0
        ((s.port p).state = .unfitted → refused .noPort) ∧
        ((s.port p).state ≠ .unfitted →
          (s.mfe.failed = true → refused .frontEnd) ∧
          (s.mfe.failed = false →
            (3 ≤ s.pmg.tier.val → refused .power) ∧
            (s.pmg.tier.val < 3 →
              (isolated → refused .isolated) ∧
              (¬ isolated →
                (busy → refused .duplicate) ∧
                (¬ busy →
                  (s.queued? p k = none → s.tsq.queue.length = 16 → refused .queueFull) ∧
                  (s.settled = true → s.tsq.running ≠ none →
                    (∀ new queue before after,
                      (s.queued? p k = none ∧ s.tsq.queue.length < 16 ∧
                        new = ⟨src.toNat, tag, p, k, prio, time, s.uls.f, .order, s.tsq.nextMade⟩ ∧
                        queue = insertEntry new s.tsq.queue) ∨
                      (∃ e, s.queued? p k = some e ∧ (∀ x ∈ s.tsq.queue, here x → x = e) ∧
                        new = { e with requester := src.toNat, tag := tag, priority := max e.priority prio } ∧
                        queue = insertEntry new (dropMade s.tsq.queue e.made)) →
                      queue = before ++ new :: after → (∀ x ∈ before, ¬ here x) →
                      ∃ made, (s.queued? p k = none → made = s.tsq.nextMade + 1) ∧
                        (s.queued? p k ≠ none → made = s.tsq.nextMade) ∧
                        result = .next ((s.setTsq { s.tsq with queue := queue, nextMade := made }).offer
                          (.answer src 7 tag .accepted (natByte (before.length + 1))))))))))))

/-- R141, R144, R151, R152, R184: a TEST CANCEL looks for the test of its station and tag in the queue first, then in
the slot, then on the stack, from its top (the model's choice, log entry 40), and answers NOT FOUND where none holds it.
A queued test is removed with a record of its own. The running test, which is alone, ends, and the RELEASEs of what it
has claimed follow its report (by inference, log entry 17) in ascending resource number (the model's choice, log entry
31). A suspended test leaves the stack, its port is disconnected and returned, and the level cell that asked for it
starts its re-arm count afresh; the claims and the other tests stay. Each ends with cause ORDER, and its TEST REPORT is
offered after the ANSWER ACCEPTED. No cell waits for room or for the end of a test, and the LINK cell of the test's port
asks for nothing. -/
def Obligations.CancelEndsTheMatchingTest : Prop :=
  ∀ (s : State) (src : Byte) (tag : Half), s.fromStation src = true → s.settled = true →
    let answer (o : AnswerCode) : State := s.offer (.answer src 8 tag o 0)
    let mine (e : QueueEntry) : Prop := e.requester = src.toNat ∧ e.tag = tag
    (s.csu.state = .unconfigured → exec (.testCancel src tag) s = .next (answer .unconfigured)) ∧
    (s.csu.state ≠ .unconfigured →
      ((∀ e ∈ s.tsq.queue, ¬ mine e) → (∀ x, s.tsq.running = some x → ¬ mine x.entry) →
        (∀ c ∈ s.tsq.stack, ¬ mine c.test.entry) → exec (.testCancel src tag) s = .next (answer .notFound)) ∧
      (∀ before e after, s.noCellWaits → s.tsq.queue = before ++ e :: after → mine e → (∀ x ∈ before, ¬ mine x) →
        ∃ t record, exec (.testCancel src tag) s = .next t ∧
          record = (⟨src.toNat, tag, e.port, e.kind, .result, .pass, FailSet.empty, [], some .order, s.uls.f, s.uls.f⟩ :
            ResultRecord) ∧
          t.tsq.queue = dropMade s.tsq.queue e.made ∧ t.tsq.running = s.tsq.running ∧ t.tsq.stack = s.tsq.stack ∧
          t.tsq.log = s.logWith record ∧
          t.tsq.nextSeq = s.tsq.nextSeq + 1 ∧
          t.pbi = ((answer .accepted).offer (.testReport src record)).pbi ∧ t.ptc = s.ptc ∧
          ∀ c, e.kind.condition? = some c → (t.cell e.port c).request =
            if (s.cell e.port c).request = .queued then .idle else (s.cell e.port c).request) ∧
      (∀ x, s.runsAlone x → mine x.entry →
        ∃ t, exec (.testCancel src tag) s = .next t ∧ s.testEnded t x (some .order) ∧
          t.pbi = (s.claimed.foldl (fun u r => u.offer (.release r))
            ((answer .accepted).offer (.testReport src (s.endRecord x (some .order))))).pbi) ∧
      (∀ before c after, s.testsOwnPorts = true → s.noCellWaits → (∀ e ∈ s.tsq.queue, ¬ mine e) →
        (∀ x, s.tsq.running = some x → ¬ mine x.entry) → s.tsq.stack = before ++ c :: after → mine c.test.entry →
        (∀ y ∈ before, ¬ mine y.test.entry) →
        let p := c.test.entry.port
        let record := s.endRecord c.test (some .order)
        (s.cell p .link).mode.isLevel = false →
        ∃ t, exec (.testCancel src tag) s = .next t ∧
          t.tsq = { s.tsq with stack := before ++ after, log := s.logWith record, nextSeq := s.tsq.nextSeq + 1 } ∧
          t.pbi = ((answer .accepted).offer (.testReport src record)).pbi ∧ t.pvu = s.pvu ∧ t.leu.report = s.leu.report ∧
          t.ptc = ((s.disconnect p).returnPort p).ptc ∧ (t.port p).relayFrontEnd = false ∧
          (t.port p).relayAccess = false ∧ (t.port p).state ≠ .inTest ∧ (t.port p).state ≠ .draining .test ∧
          (t.port p).takeWaiting = false ∧ (∀ q, q ≠ p → t.port q = s.port q) ∧
          ∀ q d, t.cell q d =
            if q = p ∧ c.test.entry.kind.condition? = some d ∧ c.test.entry.origin = .cell p d ∧
                (s.cell p d).mode.isLevel = true then { s.cell p d with rearm := 0 }
            else s.cell q d))

/-- R138 to R140, R146, R147: selection starts the first entry that is not skipped, or resumes the top of the stack where
no entry of higher priority can start. The test takes its port, clears its cell at a start, and claims its binder.
Nothing is claimed before, and no cell waits. At a frame advance an entry of higher priority preempts a running test in
CLAIM or CONNECTED, which is suspended while the stack has room. A selection with nothing to start or to resume changes
nothing (the model's choice, log entries 2 and 15). -/
def Obligations.SelectionStartsOrResumes : Prop :=
  ∀ s : State, s.settled = true → s.csu.state = .run → s.noCellWaits →
    (s.tsq.running ≠ none → exec .testStart s = .next s ∧ exec .testResume s = .next s) ∧
    (s.tsq.running = none → s.tsq.stack = [] → exec .testResume s = .next s) ∧
    (s.tsq.running = none → (∀ e ∈ s.tsq.queue, s.skips e) → exec .testStart s = .next s) ∧
    (∀ before e after, s.tsq.running = none → s.tsq.stack = [] → s.tsq.queue = before ++ e :: after →
      (∀ x ∈ before, s.skips x) → ¬ s.skips e → s.nothingClaimed → (s.port e.port).state = .inService →
      1 ≤ s.held e.port →
      ∃ t, exec .testStart s = .next t ∧
        t.tsq.running = some ⟨e, .claim, 1, [], .sent, 0, 0, if e.kind = .access then e.holdTime * 1024 else 0, 0,
          s.uls.f, .notBegun, false⟩ ∧
        t.tsq.queue = dropMade s.tsq.queue e.made ∧ t.tsq.stack = [] ∧ t.tsq.log = s.tsq.log ∧
        (t.port e.port).state = .draining .test ∧ (t.pq e.port).drainCount = 16 ∧
        (∀ p, p ≠ e.port → t.port p = s.port p) ∧
        t.claimOf (s.binderOf e.port) = { s.claimOf (s.binderOf e.port) with
          own := .settling, ownStamp := s.uls.f, settle := 4, contested := false } ∧
        t.pbi = (s.offer (.claim (s.binderOf e.port) s.uls.f)).pbi ∧
        t.pvu.accessWanted = (s.pvu.accessWanted || decide (e.kind = .access)) ∧
        ∀ c, e.kind.condition? = some c → (s.cell e.port c).mode.isEdge = true →
          t.cell e.port c = { s.cell e.port c with latched := false, seen := false, request := .idle }) ∧
    (∀ c rest, s.tsq.running = none → s.tsq.stack = c :: rest →
      (∀ e ∈ s.tsq.queue, s.skips e ∨ e.priority ≤ c.test.entry.priority) → s.nothingClaimed →
      (s.port c.test.entry.port).returnState = none →
      ∃ t, exec .testResume s = .next t ∧ t.tsq.stack = rest ∧ t.tsq.queue = s.tsq.queue ∧ t.ptc = s.ptc ∧
        t.tsq.running = some { c.test with
          claimWait := if c.claims then 0 else c.test.claimWait, phase := .claim, stage := .notBegun } ∧
        t.claimOf (s.binderOf c.test.entry.port) = { s.claimOf (s.binderOf c.test.entry.port) with
          own := .settling, ownStamp := s.uls.f, settle := 4, contested := false } ∧
        t.pbi = (s.offer (.claim (s.binderOf c.test.entry.port) s.uls.f)).pbi) ∧
    ∀ x, s.tsq.running = some x →
      (x.phase = .claim ∨ x.phase = .connected → s.tsq.stack.length < 3 →
        ∀ e, s.headIs e → x.entry.priority < e.priority → s.preempted s.preemptCheck x e) ∧
      ((x.phase ≠ .claim ∧ x.phase ≠ .connected) ∨ 3 ≤ s.tsq.stack.length ∨
        (∀ e ∈ s.tsq.queue, s.skips e ∨ e.priority ≤ x.entry.priority) → s.preemptCheck = s)

/-- R140, R144, R145: a test that has waited 256 frames for its claims ends with BUSY, and an ACCESS test whose hold has
run out ends with PASS and its connected duration. A test in another phase is left alone (the model's choice, log entries
2 and 15). -/
def Obligations.TestsEndAtTheirLimits : Prop :=
  ∀ s : State,
    (∀ x, s.runsAlone x → x.phase = .claim →
      ∃ t, exec .claimWaitTimeout s = .next t ∧ s.testEnded t x (some .busy)) ∧
    (∀ x, s.runsAlone x → x.phase = .connected → x.entry.kind = .access →
      ∃ t, exec .accessHoldEnd s = .next t ∧ s.testEnded t x none ∧
        t.tsq.log.getLast?.map (fun r => (r.2.verdict, r.2.fail, r.2.values)) =
          some (.pass, FailSet.empty, [⟨x.connected, false, false, false⟩])) ∧
    (s.settled = true → (∀ x, s.tsq.running = some x → x.phase ≠ .claim) → exec .claimWaitTimeout s = .next s) ∧
    (s.settled = true → (∀ x, s.tsq.running = some x → x.phase ≠ .connected) → exec .accessHoldEnd s = .next s)

/-- R142, R154, R158, R159: a good calibration attempt takes the raw means as offsets and lets the test enter its voltage
step; the first failed one begins the second attempt; the second failure makes the front end FAILED, and every test and
queue entry ends. An attempt that is not under way changes nothing (the model's choice, log entries 2 and 15). -/
def Obligations.CalibrationAttemptsAreJudged : Prop :=
  ∀ (s : State) (main check : Samples), s.settled = true →
    let m := rawMean main
    let c := rawMean check
    let good := m.natAbs ≤ 200 ∧ (m - c).natAbs ≤ 50
    ((∀ a n, s.mfe.activity ≠ .calibrating a n) → exec (.calibrationAttemptEnd main check) s = .next s) ∧
    ∀ a n, s.mfe.activity = .calibrating a n →
      (∀ x w, good → s.tsq.running = some x → x.phase = .calibrate → x.entry.kind.stepAt x.step = some (.voltage, w) →
        exec (.calibrationAttemptEnd main check) s = .next ((s.setMfe { s.mfe with
          mainOffset := some m, checkOffset := some c, lastCalibration := some s.uls.f, age := 0, failures := 0,
          source := .off, activity := .measuring, charge := .idle }).setTsq { s.tsq with
            running := some { x with phase := .step, stage := .settling 2 } })) ∧
      (¬ good → s.mfe.failures = 0 → exec (.calibrationAttemptEnd main check) s =
        .next (s.setMfe { s.mfe with failures := 1, activity := .calibrating (a + 1) 0 })) ∧
      (¬ good → 1 ≤ s.mfe.failures →
        ∃ t, exec (.calibrationAttemptEnd main check) s = .next t ∧ t.mfe.failed = true ∧ t.mfe.failures = 2 ∧
          t.mfe.source = .off ∧ t.mfe.mainOffset = s.mfe.mainOffset ∧ t.mfe.checkOffset = s.mfe.checkOffset ∧
          t.tsq.running = none ∧ t.tsq.stack = [] ∧ t.tsq.queue = [])

/-- R143, R146, R148, R159 to R165: a step settles, integrates and completes. Its value is added, and the next step of the
program begins with its source and its settle; the test goes no further after its last step, after its voltage steps when
one is above the FV limit, or before a source step while its port's isolation is in force; and at a completion an entry of
higher priority preempts it. A self-check adds no value; one that fails ends the test, and a second failure makes the front
end FAILED. The verdict, the fail set and the values list follow from the values. The discharge and the charge timer follow
one another. An event of a step or a charge that is not under way changes nothing (the model's choice, log entries 2 and
15). -/
def Obligations.StepsRunTheirProgram : Prop :=
  (∀ (e : EnginePart) (x : RunningTest),
    x.judgedAs e (verdictOf (testFailures e x)) (failSet (testFailures e x)) (valuesList e x)) ∧
  ∀ (s : State) (main check : Samples), s.settled = true →
    let done := exec (.stepCompletion main check) s
    (∀ x n, s.tsq.running = some x → x.phase = .step → x.stage = .settling n →
      exec .stepSettleEnd s = .next (s.setTsq { s.tsq with running := some { x with stage := .integrating } })) ∧
    ((∀ x, s.tsq.running = some x → x.phase ≠ .step) → exec .stepSettleEnd s = .next s ∧ done = .next s) ∧
    (s.mfe.charge = .discharging → exec .dischargeEnd s = .next (s.setMfe { s.mfe with charge := .charging })) ∧
    (s.mfe.charge ≠ .discharging → exec .dischargeEnd s = .next s) ∧
    (s.mfe.charge = .charging → ∀ n ≤ 65535,
      exec (.chargeTimerStop n) s = .next (s.setMfe { s.mfe with charge := .stopped n })) ∧
    (s.mfe.charge ≠ .charging → ∀ n, exec (.chargeTimerStop n) s = .next s) ∧
    ∀ x, s.tsq.running = some x → x.phase = .step → x.stage = .integrating → 1 ≤ x.step →
      let foreign (values : List StepValue) : Prop := (x.entry.kind = .ir ∨ x.entry.kind = .full) ∧ x.step = 3 ∧
        ∃ y ∈ values, s.engine.fvLimit < y.value.natAbs
      let ended (y : RunningTest) (cause : Option AbortCause) : Prop :=
        s.runsAlone x → ∃ t, done = .next t ∧ s.testEnded t y cause
      let begins (y : RunningTest) (k : StepKind) : Prop :=
        done = .next ((s.setMfe (s.mfe.begun k)).setTsq { s.tsq with
          running := some { y with phase := .step, stage := .settling k.frames } })
      (∀ k w, x.entry.kind.steps[x.step - 1]? = some (k, w) → k ≠ .selfCheck → s.mfe.activity = .measuring →
        let values := x.values ++ [s.mfe.valueOf main k]
        let y : RunningTest := { x with step := x.step + 1, values := values, stage := .notBegun }
        (x.entry.kind.steps[x.step]? = none ∨ foreign values → ended y none) ∧
        ∀ k' w', x.entry.kind.steps[x.step]? = some (k', w') → ¬ foreign values →
          (s.tsq.queue = [] → k' = .voltage → begins y k') ∧
          (s.tsq.queue = [] → k' ≠ .voltage → (s.port x.entry.port).returnState = none → s.sourceAllowed = true →
            begins y k') ∧
          (s.tsq.queue = [] → k' ≠ .voltage → (s.port x.entry.port).returnState = none → s.sourceAllowed = false →
            done = .next ((s.setMfe { s.mfe with source := .off, activity := .idle, charge := .idle }).setTsq
              { s.tsq with running := some y })) ∧
          (k' ≠ .voltage → (s.port x.entry.port).returnState ≠ none → ended y (some .isolated)) ∧
          (s.csu.state = .run → s.noCellWaits → s.tsq.stack.length < 3 → ∀ e, s.headIs e →
            x.entry.priority < e.priority → ∃ t, done = .next t ∧ s.preempted t y e)) ∧
      (∀ w, x.entry.kind.steps[x.step - 1]? = some (.selfCheck, w) → s.mfe.activity = .selfCheck →
        let seen := offsetMean check s.mfe.checkOffset
        (seen < 4950 ∨ 5050 < seen → s.mfe.failures = 0 → ended x (some .frontEnd)) ∧
        (seen < 4950 ∨ 5050 < seen → 1 ≤ s.mfe.failures →
          ∃ t, done = .next t ∧ t.mfe.failed = true ∧ t.mfe.failures = 2 ∧ t.mfe.source = .off ∧
            t.tsq.running = none ∧ t.tsq.stack = [] ∧ t.tsq.queue = []) ∧
        (4950 ≤ seen → seen ≤ 5050 → s.tsq.queue = [] → (s.port x.entry.port).returnState = none →
          s.sourceAllowed = true → begins { x with step := x.step + 1 } .resistance))

/-- R157, R162, R164: the arithmetic of the values: the mean rounds a half away from zero and is clamped after its offset is
taken, the resistance, the balance and the length round a half up, and the limits of the resistance. -/
def Obligations.MeasurementsRoundAsStated : Prop :=
  (∀ xs : Samples, (∀ x ∈ xs.toList, -32000 ≤ x ∧ x ≤ 32000) →
    (0 ≤ xs.toList.sum → -8 < 16 * rawMean xs - xs.toList.sum ∧ 16 * rawMean xs - xs.toList.sum ≤ 8) ∧
    (xs.toList.sum < 0 → -8 ≤ 16 * rawMean xs - xs.toList.sum ∧ 16 * rawMean xs - xs.toList.sum < 8) ∧
    (∀ o, offsetMean xs o = max (-32000) (min 32000 (rawMean xs - o.getD 0))) ∧
    (overRange xs = true ↔ ∃ x ∈ xs.toList, x = 32000 ∨ x = -32000) ∧
    (acFlag xs = true ↔ ∃ x ∈ xs.toList, ∃ y ∈ xs.toList, 200 < x - y)) ∧
  (∀ v : Int, (v ≤ 0 → resistanceOf v = 0) ∧ (4999 ≤ v → resistanceOf v = 99999) ∧
    (1 ≤ v → v ≤ 4998 → ∃ r : Int, resistanceOf v = min 99999 r ∧
      2 * r * (5000 - v) ≤ 200 * v + (5000 - v) ∧ 200 * v + (5000 - v) < 2 * r * (5000 - v) + 2 * (5000 - v))) ∧
  (∀ tg rg : Nat, (max tg rg = 0 → balanceOf tg rg = 0) ∧
    (1 ≤ max tg rg →
      2 * balanceOf tg rg * max tg rg ≤ 200 * (max tg rg - min tg rg) + max tg rg ∧
      200 * (max tg rg - min tg rg) + max tg rg < 2 * balanceOf tg rg * max tg rg + 2 * max tg rg)) ∧
  ∀ tr km : Nat, 1 ≤ km → 2 * lengthOf tr km * km ≤ 2 * tr + km ∧ 2 * tr + km < 2 * lengthOf tr km * km + 2 * km

/-! ### Power -/

/-- R174, R175, R176: a power share for the outstanding reference admits the ports of the shared class in ascending number
as long as their sum stays within the engine's allocation, counts each port's admissions and sends its shed or restore; any
other completion is disregarded. -/
def Obligations.PowerShareChoosesAPrefix : Prop :=
  ∀ (s : State) (q : AuRequest), s.settled = true → s.au.inFlight = some q → q.kind = .powerShare →
    (∀ c, s.pmg.powerRef = some (q.reference, c) →
      ∃ t, exec .powerShareCompletion s = .next t ∧ t.au = s.au.next ∧ t.pmg.powerRef = none ∧
        t.pmg.tier = s.pmg.tier ∧ t.pmg.evaluation = s.pmg.evaluation ∧
        ∀ p,
          let within := ((s.classUpTo c p).map fun x => (s.part x).pServ).sum ≤ q.allocationTo s.csu.address
          let member := (s.port p).state ≠ .unfitted ∧ (s.part p).cls = c
          (member → within → t.restoreOf p = min 2 (s.restoreOf p + 1) ∧ (s.noTests → s.portRestored t p)) ∧
          (member → ¬ within → t.restoreOf p = 0 ∧ (s.noTests → s.portShed t p)) ∧
          (¬ member → t.restoreOf p = s.restoreOf p ∧ (s.noTests → t.port p = s.port p))) ∧
    ((∀ c, s.pmg.powerRef ≠ some (q.reference, c)) → exec .powerShareCompletion s = .next s.nextAu)

/-- R166 to R172, R177: a rise of MAINS after a fall makes the state RETURNED; a fall makes it ABSENT with the plain tier of
the last mean, or 1 where there is none, and in RUN a LOAD and an evaluation follow. A power epoch start forms the mean,
judges the tier from it on battery, with a margin of 20 towards a better tier, and offers LOAD in RUN. An entry to tier 3
or 4 ends every test with POWER and clears the power reference, and one to tier 4 sheds every port at once. Without an
engine part a judged tier is only not 0 (log entry 4). A window without a sample keeps the last mean (by inference, log
entry 26), and a level that does not change or an epoch that has started changes nothing (the model's choice, log entries 2
and 15). -/
def Obligations.PowerFollowsMainsAndVoltage : Prop :=
  (∀ (s : State) (e : EnginePart), s.csu.engine = some e →
    let effects (t : State) : Prop := s.tierEffects t ∧
      ∀ x, s.runsAlone x → (∀ p, (s.cell p .link).mode.isLevel = false) → s.pmg.tier.val < 3 → 3 ≤ t.pmg.tier.val →
        s.testEnded t x (some .power)
    s.loadsAre e ∧
    (s.pmg.pin = true → exec .mainsRise s = .next s) ∧
    (s.pmg.pin = false → exec .mainsRise s = .next (s.setPmg { s.pmg with
      pin := true, mains := if s.pmg.mains = .absent then .returned else s.pmg.mains })) ∧
    (s.pmg.pin = false → exec .mainsFall s = .next s) ∧
    (s.pmg.pin = true → ∃ t, exec .mainsFall s = .next t ∧ t.pmg.mains = .absent ∧ t.pmg.pin = false ∧
      t.pmg.lastMean = s.pmg.lastMean ∧ t.pmg.samples = s.pmg.samples ∧
      (s.pmg.lastMean = none → t.pmg.tier = 1) ∧ (∀ v, s.pmg.lastMean = some v → t.pmg.tier.val = tierOf e v) ∧
      effects t ∧
      (s.csu.state = .run → t.pmg.evaluation = s.pmg.evaluation + 1 ∧
        t.pmg.lastEvaluation = some (s.uls.f.toNat / 64) ∧ (s.noTests → t.pbi = (s.offer (s.loadAtTier t.pmg.tier)).pbi)) ∧
      (s.csu.state ≠ .run → t.pmg.evaluation = s.pmg.evaluation ∧ t.pmg.lastEvaluation = s.pmg.lastEvaluation ∧
        (s.noTests → t.pbi = s.pbi))) ∧
    (s.pmg.powerEpoch = s.uls.f.toNat / 64 → exec .powerEpochStart s = .next s) ∧
    (s.pmg.powerEpoch ≠ s.uls.f.toNat / 64 → ∃ t, exec .powerEpochStart s = .next t ∧
      t.pmg.powerEpoch = s.uls.f.toNat / 64 ∧ t.pmg.mains = s.pmg.mains ∧ t.pmg.samples = s.pmg.samples ∧
      (s.pmg.samples = [] → t.pmg.lastMean = s.pmg.lastMean ∧ t.pmg.tier = s.pmg.tier) ∧
      (s.pmg.samples ≠ [] →
        let v := (s.pmg.samples.map BitVec.toNat).sum / s.pmg.samples.length
        t.pmg.lastMean = some v ∧
        (s.pmg.mains ≠ .present → t.pmg.tier.val =
          if s.pmg.tier.val < tierOf e v then tierOf e v
          else if tierOf e v < s.pmg.tier.val ∧ marginTierOf e v < s.pmg.tier.val then marginTierOf e v
          else s.pmg.tier.val)) ∧
      effects t ∧
      (s.pmg.mains = .present → t.pmg.tier = s.pmg.tier) ∧
      ((s.settled = true ∧ s.pmg.mains = .present) ∨ s.noTests →
        t.pbi = if s.csu.state = .run then (s.offer (s.loadAtTier t.pmg.tier)).pbi else s.pbi))) ∧
  ∀ s : State, s.csu.engine = none →
    (s.pmg.pin = true → ∃ t, exec .mainsFall s = .next t ∧ t.pmg.mains = .absent ∧ t.pmg.pin = false ∧
      (s.pmg.lastMean = none → t.pmg.tier = 1) ∧ (s.pmg.lastMean ≠ none → 1 ≤ t.pmg.tier.val)) ∧
    (s.pmg.powerEpoch ≠ s.uls.f.toNat / 64 → ∃ t, exec .powerEpochStart s = .next t ∧
      (s.pmg.samples = [] ∨ s.pmg.mains = .present → t.pmg.tier = s.pmg.tier) ∧
      (s.pmg.samples ≠ [] → s.pmg.mains ≠ .present → 1 ≤ t.pmg.tier.val))

/-- R173, R174, R176: an evaluation that is due, in RUN from the sixteenth frame of a power epoch in which none has begun,
counts itself, takes RETURNED to PRESENT and tier 0, and decides every class by the tier: all at 0, ESSENTIAL at 3, none
at 4, and at 1 or 2 what the budget carries, with one class at most shared through the allocation unit. An admitted
port's restore counter goes up to 2, a refused one's to 0; a refused port is sent a shed, at tier 4 a shed at once, and an
admitted one a restore when its counter reaches 2. An evaluation that requests nothing keeps the older power reference
(by inference, log entry 23), and one that is not due changes nothing (the model's choice, log entries 2 and 15). -/
def Obligations.EvaluationDecidesByTier : Prop :=
  ∀ (s : State) (e : EnginePart), s.csu.engine = some e → s.peersOk = true →
    let due := s.csu.state = .run ∧ 16 ≤ s.uls.f.toNat % 64 ∧ s.pmg.lastEvaluation ≠ some (s.uls.f.toNat / 64)
    (¬ due → exec .powerEvaluation s = .next s) ∧
    (due → ∃ t, exec .powerEvaluation s = .next t ∧ t.pmg.evaluation = s.pmg.evaluation + 1 ∧
      t.pmg.lastEvaluation = some (s.uls.f.toNat / 64) ∧
      t.pmg.mains = (if s.pmg.mains = .returned then .present else s.pmg.mains) ∧
      t.pmg.tier = (if s.pmg.mains = .returned then 0 else s.pmg.tier) ∧
      (∀ p, (s.port p).state = .unfitted → t.restoreOf p = s.restoreOf p) ∧
      ∀ p, (s.port p).state ≠ .unfitted →
        let c := (s.part p).cls
        let admitted := t.restoreOf p = min 2 (s.restoreOf p + 1) ∧ (s.noTests → s.portRestored t p)
        let refused := t.restoreOf p = 0 ∧ (s.noTests → s.portShed t p)
        (t.pmg.tier = 0 → admitted ∧ t.au = s.au) ∧
        (t.pmg.tier = 3 → (c = .essential → admitted) ∧ (c ≠ .essential → refused)) ∧
        (t.pmg.tier = 4 → refused) ∧
        (t.pmg.tier = 1 ∨ t.pmg.tier = 2 →
          let left := (if t.pmg.tier = 1 then e.b1 else e.b2) - s.totalWant .essential
          let shares (x : PortClass) (capacity : Nat) : Prop :=
            (c = x → t.restoreOf p = s.restoreOf p ∧ (s.noTests → t.port p = s.port p)) ∧
            (s.want x = 0 → t.au = s.au ∧ t.pmg.powerRef = s.pmg.powerRef) ∧
            (1 ≤ s.want x → t.pmg.powerRef = some (s.pmg.evaluation + 1, x) ∧
              ∃ q, t.au = s.au.request q ∧ s.sharesPower q x (s.pmg.evaluation + 1) capacity)
          (c = .essential → admitted) ∧
          (s.totalWant .standard ≤ left → (c = .standard → admitted) ∧
            (s.totalWant .deferrable ≤ left - s.totalWant .standard →
              (c = .deferrable → admitted) ∧ t.au = s.au) ∧
            (left - s.totalWant .standard < s.totalWant .deferrable →
              shares .deferrable (left - s.totalWant .standard))) ∧
          (left < s.totalWant .standard → (c = .deferrable → refused) ∧ shares .standard left)))

/-! ### Configuration and status -/

/-- R121, R123, R131, R179, R180, R184: a CONFIGURE is answered ALREADY outside UNCONFIGURED and BAD VALUE for a bad
part; an accepted part is clamped and stored, and is answered ACCEPTED. One that completes the image takes the engine to
RUN, with its cells as configured and the unfitted ports UNFITTED. Where no cell is a level cell, so that no test is
asked for at the entry to RUN, the ANSWER ACCEPTED is all that is offered, and each fitted port is IN SERVICE, at tier 4
OFF after its shed at once, or ISOLATED under foreign voltage. -/
def Obligations.ConfigureStoresThePart : Prop :=
  ∀ (s : State) (src : Byte) (tag : Half), s.fromStation src = true →
    let answer (t : State) (request : Byte) (o : AnswerCode) : State := t.offer (.answer src request tag o 0)
    let stored (request : Byte) (csu : Csu) (result : Host.Outcome State Fault Refusal) : Prop :=
      (¬ (∃ e, csu.engine = some e ∧ ∀ p : PortNo, e.fitted.getLsbD p.val = true → (tget csu.ports p).isSome = true) →
        result = .next (answer (s.setCsu csu) request .accepted)) ∧
      (∀ e, csu.engine = some e → (∀ p : PortNo, e.fitted.getLsbD p.val = true → (tget csu.ports p).isSome = true) →
        ∃ t, result = .next t ∧ t.csu = { csu with state := .run } ∧ t.uls.f = s.uls.f ∧ t.uls.sync = s.uls.sync ∧
          (s.unfittedOk = true → ∀ p : PortNo,
            (e.fitted.getLsbD p.val = false → (t.port p).state = .unfitted) ∧
            (∀ part, e.fitted.getLsbD p.val = true → tget csu.ports p = some part →
              (t.port p).state ≠ .unfitted ∧
              ((t.cell p .link).mode = part.link.mode ∧ (t.cell p .link).priority = part.link.priority) ∧
              ((t.cell p .fvd).mode = part.fvd.mode ∧ (t.cell p .fvd).priority = part.fvd.priority) ∧
              (t.cell p .gflt).mode = part.gflt.mode ∧ (t.cell p .gflt).priority = part.gflt.priority)) ∧
          (s.settled = true → s.unfittedOk = true →
            (∀ p part, tget csu.ports p = some part → part.link.mode.isLevel = false ∧ part.fvd.mode.isLevel = false ∧
              part.gflt.mode.isLevel = false) →
            (∀ p c, (s.cell p c).mode.isLevel = false) →
            t.pbi = (answer s request .accepted).pbi ∧ t.tsq = s.tsq ∧ t.pvu = s.pvu ∧
            ∀ p : PortNo, e.fitted.getLsbD p.val = true → (t.port p).link = false ∧
              (t.port p).state = if (s.line p).fvdLevel then .isolated else if s.pmg.tier = 4 then .off else .inService))
    (∀ f : EngineFields,
      let result := exec (.configureEngine src tag f) s
      let right := f.vb.toNat < f.va.toNat ∧ f.vc.toNat < f.vb.toNat ∧ f.b2.toNat ≤ f.b1.toNat ∧ f.fitted.toNat < 4096
      (s.csu.state ≠ .unconfigured → result = .next (answer s 13 .already)) ∧
      (s.csu.state = .unconfigured → ¬ right → result = .next (answer s 13 .badValue)) ∧
      (s.csu.state = .unconfigured → right →
        let part : EnginePart := {
          fitted := f.fitted, weight := max 1 (min 15 f.weight.toNat), reserved := min 16 f.reserved.toNat,
          fvLimit := f.fvLimit.toNat, irThreshold := f.irThreshold.toNat, kmcap := max 20 (min 100 f.kmcap.toNat),
          balanceLimit := f.balanceLimit.toNat, va := f.va.toNat, vb := f.vb.toNat, vc := f.vc.toNat,
          b1 := f.b1.toNat, b2 := f.b2.toNat, pBase := f.pBase.toNat, pTest := f.pTest.toNat, pSrc := f.pSrc.toNat }
        stored 13 { s.csu with engine := some part } result)) ∧
    ∀ f : PortFields,
      let result := exec (.configurePort src tag f) s
      (s.csu.state ≠ .unconfigured → result = .next (answer s 141 .already)) ∧
      (s.csu.state = .unconfigured → 12 ≤ f.port.toNat ∨ 8 ≤ f.binder.toNat ∨ 3 ≤ f.cls.toNat ∨ 6 ≤ f.linkMode.toNat ∨
        6 ≤ f.fvdMode.toNat ∨ 6 ≤ f.gfltMode.toNat → result = .next (answer s 141 .badValue)) ∧
      (s.csu.state = .unconfigured → ∀ (p : PortNo) (b : BinderNo) (c : PortClass) (l v g : SenseMode),
        f.port.toNat = p.val → f.binder.toNat = b.val → f.cls.toNat = c.code → senseModeOf f.linkMode = some l →
        senseModeOf f.fvdMode = some v → senseModeOf f.gfltMode = some g →
        let part : PortPart := {
          cls := c, weight := max 1 (min 8 f.weight.toNat),
          limit := if f.limit.toNat = 0 then 64 else max 8 (min 256 f.limit.toNat), binder := b,
          link := ⟨l, min 15 f.linkPriority.toNat⟩, fvd := ⟨v, min 15 f.fvdPriority.toNat⟩,
          gflt := ⟨g, min 15 f.gfltPriority.toNat⟩, pServ := f.pServ.toNat, pIso := f.pIso.toNat }
        stored 141 { s.csu with ports := tput s.csu.ports p (some part) } result)

/-- R22, R41, R55, R77, R107, R108, R122, R123, R132, R134, R153, R154, R167, R177, R182: a RESTART is accepted in every
state. With an empty transmit queue in IDLE, its ANSWER and the RELEASEs of what the engine claims are queued. It clears
the receive and collision counters and the error set, keeps the address, the sense modes and the comparators' levels,
and takes the allocation unit, the peer table, the scheduler, the queues, the exit counts and the power manager to their
power-on values. A complete image is kept and leads to RUN, an incomplete one is emptied. In UNCONFIGURED, and in RUN
where no cell is a level cell, so that no test is asked for at the entry to RUN, the claims, the tests with their result
log, the front end and the dropped-message counter take their power-on values, too, and the cells are idle with the
modes they keep or are configured with; the ports are UNFITTED, in RUN the fitted ones IN SERVICE with link down, or
ISOLATED under foreign voltage. That a low MAINS level brings no LOAD and no evaluation rests on its being read before
the entry to RUN (by inference, log entry 12); values at power-on that the spec does not state are the model's choice
(log entry 24). -/
def Obligations.RestartReinitialises : Prop :=
  ∀ (s : State) (src : Byte) (tag : Half), s.fromStation src = true →
    let fitted (p : PortNo) : Prop := ∃ e, s.csu.engine = some e ∧ e.fitted.getLsbD p.val = true
    let complete := s.csu.engine ≠ none ∧ ∀ p, fitted p → (tget s.csu.ports p).isSome = true
    let noLevels := (∀ p c, (s.cell p c).mode.isLevel = false) ∧ ∀ p part, tget s.csu.ports p = some part →
      part.link.mode.isLevel = false ∧ part.fvd.mode.isLevel = false ∧ part.gflt.mode.isLevel = false
    let fresh (mode : SenseMode) (priority : Nat) : Cell := ⟨mode, priority, false, false, .idle, 4096⟩
    let kept (p : PortNo) (c : Condition) : Cell := fresh (s.cell p c).mode (s.cell p c).priority
    ∃ t, exec (.restart src tag) s = .next t ∧ t.pending = s.pending ∧ t.csu.address = s.csu.address ∧
      t.pbi.rx = .idle ∧ t.pbi.rxValid = 0 ∧ t.pbi.rxDiscard = 0 ∧ t.pbi.collisions = 0 ∧
      (∀ k, t.pbi.errors.has k = false) ∧ t.au = ⟨none, none, none, none⟩ ∧ t.pvu.peers = [] ∧ t.uls = Uls.powerOn ∧
      t.pqm = Pqm.powerOn ∧ t.leu.report = 0 ∧
      (∀ p, (t.line p).fvdLevel = (s.line p).fvdLevel ∧ (t.line p).gfltLevel = (s.line p).gfltLevel ∧
        (t.line p).exit = 0) ∧
      t.pmg = { Pmg.powerOn with
        pin := s.pmg.pin, mains := if s.pmg.pin then .present else .absent, tier := if s.pmg.pin then 0 else 1 } ∧
      (s.pbi.queue = [] → s.pbi.tx = .idle → s.claimed.length ≤ 6 →
        (t.pbi.queue.map TxEntry.msg).take (s.claimed.length + 1) =
          .answer src 14 tag .accepted 0 :: s.claimed.map Message.release) ∧
      (¬ complete ∨ noLevels →
        t.pbi.txDropped = 0 ∧ t.pvu = Pvu.powerOn ∧ t.tsq = Tsq.powerOn ∧ t.mfe = Mfe.powerOn ∧
        (s.pbi.queue = [] → s.pbi.tx = .idle → s.claimed.length ≤ 7 →
          t.pbi.queue.map TxEntry.msg = .answer src 14 tag .accepted 0 :: s.claimed.map Message.release)) ∧
      (complete → t.csu = { s.csu with state := .run }) ∧
      (complete → noLevels → ∀ p,
        (¬ fitted p → t.port p = PortRecord.powerOn ∧ ∀ c, t.cell p c = kept p c) ∧
        ∀ part, fitted p → tget s.csu.ports p = some part →
          t.port p = (if (s.line p).fvdLevel then
              { PortRecord.powerOn with state := .isolated, returnState := some .inService }
            else { PortRecord.powerOn with state := .inService, relayTransceiver := true }) ∧
          t.cell p .link = fresh part.link.mode part.link.priority ∧
          t.cell p .fvd = fresh part.fvd.mode part.fvd.priority ∧
          t.cell p .gflt = fresh part.gflt.mode part.gflt.priority) ∧
      (¬ complete →
        t.csu = { state := .unconfigured, address := s.csu.address, engine := none, ports := Vector.replicate 12 none } ∧
        t.ptc = Vector.replicate 12 PortRecord.powerOn ∧ ∀ p c, t.cell p c = kept p c)

/-- R20, R28, R106, R153, R183 to R185: every selector but EVENTS, which stands above, answers with its reply, built
before anything is cleared; a set clear flag, which is any flag but 0 (the model's choice, log entry 13), clears the bus
counters and the error set for ENGINE and the port's counters for PORT. The bytes that pack several names, the error set
and the flags of ENGINE among them, are packed as log entry 7 chooses, the bits that the layouts assign to nothing are 0
(the model's choice, log entry 49), and the span records of a PEER reply stand in the order in which they joined (the
model's choice, log entry 46); bytes whose content is absent are free (log entry 3) and stated nowhere. In UNCONFIGURED
only ENGINE is answered so, and a bad index or selector gets BAD VALUE. -/
def Obligations.StatusQueriesAreAnswered : Prop :=
  ∀ (s : State) (src : Byte) (tag : Half), s.fromStation src = true →
    let refused (o : AnswerCode) : Host.Outcome State Fault Refusal := .next (s.offer (.answer src 10 tag o 0))
    (∀ clear, ∃ (t : State) (contents : List Byte),
      exec (.statusQueryEngine src tag clear) s = .next (t.offer (.statusReply src tag 0 contents)) ∧
      t = { s with
        freeDraws := t.freeDraws,
        pbi := if clear = 0 then s.pbi
          else { s.pbi with rxValid := 0, rxDiscard := 0, collisions := 0, txDropped := 0, errors := ErrorSet.empty } } ∧
      contents.length = 33 ∧
      contents.take 6 = [s.csu.state.code, natByte s.pmg.tier.val, s.pmg.mains.code, s.uls.sync.code] ++
        halfBytes s.uls.f ∧
      (∀ w, s.uls.current = some w → (contents.drop 6).take 2 = [natByte w.start, natByte w.len]) ∧
      (contents.drop 8).take 13 = natByte s.uls.granted :: natHalfBytes s.pqm.free ++ halfBytes s.pbi.rxValid ++
        halfBytes s.pbi.rxDiscard ++ halfBytes s.pbi.collisions ++ halfBytes s.pbi.txDropped ++
        [s.pbi.errors.toByte, natByte (bitIf 128 (s.uls.current = none) + bitIf 64 (s.mfe.lastCalibration = none) +
          bitIf 32 (s.pmg.lastMean = none) + bitIf 16 (s.mfe.failed = true))] ∧
      (∀ f, s.mfe.lastCalibration = some f → (contents.drop 21).take 2 = halfBytes f) ∧
      (∀ v, s.pmg.lastMean = some v → (contents.drop 23).take 2 = natHalfBytes v) ∧
      (s.csu.engine ≠ none → contents.drop 25 = natHalfBytes s.eWant ++ natHalfBytes s.sWant ++ natHalfBytes s.fWant ++
        natHalfBytes s.presentLoad)) ∧
    (s.csu.state = .unconfigured →
      (∀ index clear, exec (.statusQueryPort src tag index clear) s = refused .unconfigured) ∧
      exec (.statusQueryTests src tag) s = refused .unconfigured ∧
      (∀ index, exec (.statusQueryLog src tag index) s = refused .unconfigured ∧
        exec (.statusQueryPeer src tag index) s = refused .unconfigured) ∧
      exec (.statusQueryClaims src tag) s = refused .unconfigured ∧
      ∀ selector : Byte, 7 ≤ selector.toNat → exec (.statusQueryUnknownSelector src tag selector) s = refused .unconfigured) ∧
    (s.csu.state ≠ .unconfigured →
      (∀ (p : PortNo) clear, ∃ (t : State) (contents : List Byte),
        exec (.statusQueryPort src tag (natByte p.val) clear) s = .next (t.offer (.statusReply src tag 1 contents)) ∧
        t = { (if clear = 0 then s else s.setPq p { s.pq p with counters := ⟨0, 0, 0, 0, 0, 0, 0⟩ }) with
          freeDraws := t.freeDraws } ∧
        contents.length = 26 ∧ contents.take 2 = [natByte p.val, (s.port p).state.code] ∧
        (∀ x, tget s.csu.ports p = some x →
          let r := s.port p
          contents[2]? = some (natByte (bitIf 128 (r.state = .draining .shed) + bitIf 64 (r.shedPending = true) +
            bitIf 32 (r.returnState ≠ none) + bitIf 16 (r.returnState = some .off) + bitIf 8 (r.link = true) +
            bitIf 4 (r.takeWaiting = true) + x.cls.code))) ∧
        (contents.drop 3).take 9 = natByte (s.pq p).drainCount :: natHalfBytes (s.queued p) ++
          natHalfBytes (s.pq p).queue.length ++
          (match (s.pq p).queue.head? with
           | some x => halfBytes (s.uls.f - x.admitted)
           | none => [255, 255]) ++ natHalfBytes (s.retransmits p) ∧
        contents.drop 12 = halfBytes (s.pq p).counters.notInService ++ halfBytes (s.pq p).counters.portLimit ++
          halfBytes (s.pq p).counters.poolEmpty ++ halfBytes (s.pq p).counters.segmentLost ++
          halfBytes (s.pq p).counters.unconfirmed ++ halfBytes (s.pq p).counters.discarded ++
          halfBytes (s.pq p).counters.downstreamDropped) ∧
      (∀ index clear, 12 ≤ index.toNat → exec (.statusQueryPort src tag index clear) s = refused .badValue) ∧
      (∃ (t : State) (contents : List Byte), exec (.statusQueryTests src tag) s = .next (t.offer (.statusReply src tag 3 contents)) ∧
        t = { s with freeDraws := t.freeDraws } ∧ contents.head? = some (natByte s.tsq.queue.length) ∧
        (∀ x, s.tsq.running = some x → (contents.drop 1).take 5 = [natByte x.entry.port.val, natByte x.entry.kind.code,
          x.phase.code, natByte x.step, natByte x.entry.requester]) ∧
        (s.tsq.running = none → contents[1]? = some 255) ∧
        contents.drop 6 = natByte s.tsq.stack.length ::
          (s.tsq.stack.flatMap fun c => [natByte c.test.entry.port.val, natByte c.test.entry.kind.code,
            natByte c.test.step]) ++
          ((s.tsq.queue.take 7).flatMap fun e => [natByte e.port.val, natByte e.kind.code, natByte e.priority,
            natByte e.requester]) ∧
        (s.withinLimits = true → contents.length ≤ 44)) ∧
      (∀ index,
        (∀ n r, (n, r) ∈ s.tsq.log → n.extractLsb' 0 8 = index →
          (∀ x ∈ s.tsq.log, x.1.extractLsb' 0 8 = index → x = (n, r)) →
          exec (.statusQueryLog src tag index) s =
            .next (s.offer (.statusReply src tag 4 (halfBytes n ++ natByte r.requester :: halfBytes r.tag ++
              [natByte (16 * r.port.val + r.kind.code),
                natByte (16 * r.verdict.code + bitIf 1 (r.fail.foreign = true) + bitIf 2 (r.fail.lowIr = true) +
                  bitIf 4 (r.fail.open' = true) + bitIf 8 (r.fail.unbalanced = true)),
                natByte (16 * causeCode r.cause + r.values.length)] ++ halfBytes r.start ++ halfBytes r.finish ++
              r.values.flatMap StepValue.bytes)))) ∧
        ((∀ x ∈ s.tsq.log, x.1.extractLsb' 0 8 ≠ index) →
          exec (.statusQueryLog src tag index) s = .next (s.offer (.statusReply src tag 4 [0xFF, 0xFF])))) ∧
      exec (.statusQueryClaims src tag) s = .next (s.offer (.statusReply src tag 5 (allResources.flatMap fun r =>
        natByte (((s.claimOf r).holder.getD 0) * 4 + (s.claimOf r).own.code) :: halfBytes (s.claimOf r).stamp ++
          halfBytes (s.claimOf r).lastRefresh))) ∧
      (∀ index : Byte, 1 ≤ index.toNat → index.toNat ≤ 16 → ∃ (t : State) (contents : List Byte),
        exec (.statusQueryPeer src tag index) s = .next (t.offer (.statusReply src tag 6 contents)) ∧
        t = { s with freeDraws := t.freeDraws } ∧ contents.length = 27 ∧
        (s.peer? index.toNat = none → contents.tail = List.replicate 26 0) ∧
        (∀ x, s.peer? index.toNat = some x → contents =
          index :: natByte (bitIf 128 (x.demand ≠ none) + bitIf 64 (∃ d ∈ x.demand, d.age ≤ 4) +
              bitIf 32 (x.load ≠ none) + bitIf 16 (∃ l ∈ x.load, l.age ≤ 2) + x.spans.length % 4) ::
            (match x.demand with
             | some d => halfBytes d.epoch ++ [natByte d.demand, natByte d.weight, natByte d.age]
             | none => List.replicate 5 0) ++
            ([0, 1].flatMap fun i => match x.spans[i]? with
              | some r => halfBytes r.epoch ++ [r.start, r.len]
              | none => List.replicate 4 0) ++
            (match x.load with
             | some l => halfBytes l.epoch ++ halfBytes l.eWant ++ halfBytes l.sWant ++ halfBytes l.fWant ++
                 halfBytes l.present ++ [natByte l.tier, natByte l.age]
             | none => List.replicate 12 0))) ∧
      (∀ index, index.toNat = 0 ∨ 16 < index.toNat → exec (.statusQueryPeer src tag index) s = refused .badValue) ∧
      ∀ selector : Byte, 7 ≤ selector.toNat → exec (.statusQueryUnknownSelector src tag selector) s = refused .badValue)
end

