-- ==== Sys2Proof/Laws/State.lean ====
section
/-!
SUPPORT. One lemma per field of State and per update, true by rfl, so that no later proof unfolds a record update; and
what one entry of a table reads after an update of that table.
-/
namespace Sys2Proof.Machine

/-! ### setPort -/

@[simp] theorem State.setPort_csu (s : State) (p : PortNo) (r : PortRecord) : (s.setPort p r).csu = s.csu := rfl
@[simp] theorem State.setPort_pbi (s : State) (p : PortNo) (r : PortRecord) : (s.setPort p r).pbi = s.pbi := rfl
@[simp] theorem State.setPort_pvu (s : State) (p : PortNo) (r : PortRecord) : (s.setPort p r).pvu = s.pvu := rfl
@[simp] theorem State.setPort_au (s : State) (p : PortNo) (r : PortRecord) : (s.setPort p r).au = s.au := rfl
@[simp] theorem State.setPort_uls (s : State) (p : PortNo) (r : PortRecord) : (s.setPort p r).uls = s.uls := rfl
@[simp] theorem State.setPort_pqm (s : State) (p : PortNo) (r : PortRecord) : (s.setPort p r).pqm = s.pqm := rfl
@[simp] theorem State.setPort_ptc (s : State) (p : PortNo) (r : PortRecord) :
    (s.setPort p r).ptc = tput s.ptc p r := rfl
@[simp] theorem State.setPort_leu (s : State) (p : PortNo) (r : PortRecord) : (s.setPort p r).leu = s.leu := rfl
@[simp] theorem State.setPort_tsq (s : State) (p : PortNo) (r : PortRecord) : (s.setPort p r).tsq = s.tsq := rfl
@[simp] theorem State.setPort_mfe (s : State) (p : PortNo) (r : PortRecord) : (s.setPort p r).mfe = s.mfe := rfl
@[simp] theorem State.setPort_pmg (s : State) (p : PortNo) (r : PortRecord) : (s.setPort p r).pmg = s.pmg := rfl
@[simp] theorem State.setPort_delivered (s : State) (p : PortNo) (r : PortRecord) :
    (s.setPort p r).delivered = s.delivered := rfl
@[simp] theorem State.setPort_freeDraws (s : State) (p : PortNo) (r : PortRecord) :
    (s.setPort p r).freeDraws = s.freeDraws := rfl
@[simp] theorem State.setPort_pending (s : State) (p : PortNo) (r : PortRecord) :
    (s.setPort p r).pending = s.pending := rfl

/-! ### setPq -/

@[simp] theorem State.setPq_csu (s : State) (p : PortNo) (q : PqmPort) : (s.setPq p q).csu = s.csu := rfl
@[simp] theorem State.setPq_pbi (s : State) (p : PortNo) (q : PqmPort) : (s.setPq p q).pbi = s.pbi := rfl
@[simp] theorem State.setPq_pvu (s : State) (p : PortNo) (q : PqmPort) : (s.setPq p q).pvu = s.pvu := rfl
@[simp] theorem State.setPq_au (s : State) (p : PortNo) (q : PqmPort) : (s.setPq p q).au = s.au := rfl
@[simp] theorem State.setPq_uls (s : State) (p : PortNo) (q : PqmPort) : (s.setPq p q).uls = s.uls := rfl
@[simp] theorem State.setPq_pqm (s : State) (p : PortNo) (q : PqmPort) :
    (s.setPq p q).pqm = { s.pqm with ports := tput s.pqm.ports p q } := rfl
@[simp] theorem State.setPq_ptc (s : State) (p : PortNo) (q : PqmPort) : (s.setPq p q).ptc = s.ptc := rfl
@[simp] theorem State.setPq_leu (s : State) (p : PortNo) (q : PqmPort) : (s.setPq p q).leu = s.leu := rfl
@[simp] theorem State.setPq_tsq (s : State) (p : PortNo) (q : PqmPort) : (s.setPq p q).tsq = s.tsq := rfl
@[simp] theorem State.setPq_mfe (s : State) (p : PortNo) (q : PqmPort) : (s.setPq p q).mfe = s.mfe := rfl
@[simp] theorem State.setPq_pmg (s : State) (p : PortNo) (q : PqmPort) : (s.setPq p q).pmg = s.pmg := rfl
@[simp] theorem State.setPq_delivered (s : State) (p : PortNo) (q : PqmPort) :
    (s.setPq p q).delivered = s.delivered := rfl
@[simp] theorem State.setPq_freeDraws (s : State) (p : PortNo) (q : PqmPort) :
    (s.setPq p q).freeDraws = s.freeDraws := rfl
@[simp] theorem State.setPq_pending (s : State) (p : PortNo) (q : PqmPort) : (s.setPq p q).pending = s.pending := rfl

/-! ### setLine -/

@[simp] theorem State.setLine_csu (s : State) (p : PortNo) (l : LeuPort) : (s.setLine p l).csu = s.csu := rfl
@[simp] theorem State.setLine_pbi (s : State) (p : PortNo) (l : LeuPort) : (s.setLine p l).pbi = s.pbi := rfl
@[simp] theorem State.setLine_pvu (s : State) (p : PortNo) (l : LeuPort) : (s.setLine p l).pvu = s.pvu := rfl
@[simp] theorem State.setLine_au (s : State) (p : PortNo) (l : LeuPort) : (s.setLine p l).au = s.au := rfl
@[simp] theorem State.setLine_uls (s : State) (p : PortNo) (l : LeuPort) : (s.setLine p l).uls = s.uls := rfl
@[simp] theorem State.setLine_pqm (s : State) (p : PortNo) (l : LeuPort) : (s.setLine p l).pqm = s.pqm := rfl
@[simp] theorem State.setLine_ptc (s : State) (p : PortNo) (l : LeuPort) : (s.setLine p l).ptc = s.ptc := rfl
@[simp] theorem State.setLine_leu (s : State) (p : PortNo) (l : LeuPort) :
    (s.setLine p l).leu = { s.leu with ports := tput s.leu.ports p l } := rfl
@[simp] theorem State.setLine_tsq (s : State) (p : PortNo) (l : LeuPort) : (s.setLine p l).tsq = s.tsq := rfl
@[simp] theorem State.setLine_mfe (s : State) (p : PortNo) (l : LeuPort) : (s.setLine p l).mfe = s.mfe := rfl
@[simp] theorem State.setLine_pmg (s : State) (p : PortNo) (l : LeuPort) : (s.setLine p l).pmg = s.pmg := rfl
@[simp] theorem State.setLine_delivered (s : State) (p : PortNo) (l : LeuPort) :
    (s.setLine p l).delivered = s.delivered := rfl
@[simp] theorem State.setLine_freeDraws (s : State) (p : PortNo) (l : LeuPort) :
    (s.setLine p l).freeDraws = s.freeDraws := rfl
@[simp] theorem State.setLine_pending (s : State) (p : PortNo) (l : LeuPort) :
    (s.setLine p l).pending = s.pending := rfl

/-! ### setClaim -/

@[simp] theorem State.setClaim_csu (s : State) (r : ResourceNo) (c : ClaimEntry) : (s.setClaim r c).csu = s.csu := rfl
@[simp] theorem State.setClaim_pbi (s : State) (r : ResourceNo) (c : ClaimEntry) : (s.setClaim r c).pbi = s.pbi := rfl
@[simp] theorem State.setClaim_pvu (s : State) (r : ResourceNo) (c : ClaimEntry) :
    (s.setClaim r c).pvu = { s.pvu with claims := tput s.pvu.claims r c } := rfl
@[simp] theorem State.setClaim_au (s : State) (r : ResourceNo) (c : ClaimEntry) : (s.setClaim r c).au = s.au := rfl
@[simp] theorem State.setClaim_uls (s : State) (r : ResourceNo) (c : ClaimEntry) : (s.setClaim r c).uls = s.uls := rfl
@[simp] theorem State.setClaim_pqm (s : State) (r : ResourceNo) (c : ClaimEntry) : (s.setClaim r c).pqm = s.pqm := rfl
@[simp] theorem State.setClaim_ptc (s : State) (r : ResourceNo) (c : ClaimEntry) : (s.setClaim r c).ptc = s.ptc := rfl
@[simp] theorem State.setClaim_leu (s : State) (r : ResourceNo) (c : ClaimEntry) : (s.setClaim r c).leu = s.leu := rfl
@[simp] theorem State.setClaim_tsq (s : State) (r : ResourceNo) (c : ClaimEntry) : (s.setClaim r c).tsq = s.tsq := rfl
@[simp] theorem State.setClaim_mfe (s : State) (r : ResourceNo) (c : ClaimEntry) : (s.setClaim r c).mfe = s.mfe := rfl
@[simp] theorem State.setClaim_pmg (s : State) (r : ResourceNo) (c : ClaimEntry) : (s.setClaim r c).pmg = s.pmg := rfl
@[simp] theorem State.setClaim_delivered (s : State) (r : ResourceNo) (c : ClaimEntry) :
    (s.setClaim r c).delivered = s.delivered := rfl
@[simp] theorem State.setClaim_freeDraws (s : State) (r : ResourceNo) (c : ClaimEntry) :
    (s.setClaim r c).freeDraws = s.freeDraws := rfl
@[simp] theorem State.setClaim_pending (s : State) (r : ResourceNo) (c : ClaimEntry) :
    (s.setClaim r c).pending = s.pending := rfl

/-! ### setRestore -/

@[simp] theorem State.setRestore_csu (s : State) (p : PortNo) (n : Nat) : (s.setRestore p n).csu = s.csu := rfl
@[simp] theorem State.setRestore_pbi (s : State) (p : PortNo) (n : Nat) : (s.setRestore p n).pbi = s.pbi := rfl
@[simp] theorem State.setRestore_pvu (s : State) (p : PortNo) (n : Nat) : (s.setRestore p n).pvu = s.pvu := rfl
@[simp] theorem State.setRestore_au (s : State) (p : PortNo) (n : Nat) : (s.setRestore p n).au = s.au := rfl
@[simp] theorem State.setRestore_uls (s : State) (p : PortNo) (n : Nat) : (s.setRestore p n).uls = s.uls := rfl
@[simp] theorem State.setRestore_pqm (s : State) (p : PortNo) (n : Nat) : (s.setRestore p n).pqm = s.pqm := rfl
@[simp] theorem State.setRestore_ptc (s : State) (p : PortNo) (n : Nat) : (s.setRestore p n).ptc = s.ptc := rfl
@[simp] theorem State.setRestore_leu (s : State) (p : PortNo) (n : Nat) : (s.setRestore p n).leu = s.leu := rfl
@[simp] theorem State.setRestore_tsq (s : State) (p : PortNo) (n : Nat) : (s.setRestore p n).tsq = s.tsq := rfl
@[simp] theorem State.setRestore_mfe (s : State) (p : PortNo) (n : Nat) : (s.setRestore p n).mfe = s.mfe := rfl
@[simp] theorem State.setRestore_pmg (s : State) (p : PortNo) (n : Nat) :
    (s.setRestore p n).pmg = { s.pmg with restore := tput s.pmg.restore p n } := rfl
@[simp] theorem State.setRestore_delivered (s : State) (p : PortNo) (n : Nat) :
    (s.setRestore p n).delivered = s.delivered := rfl
@[simp] theorem State.setRestore_freeDraws (s : State) (p : PortNo) (n : Nat) :
    (s.setRestore p n).freeDraws = s.freeDraws := rfl
@[simp] theorem State.setRestore_pending (s : State) (p : PortNo) (n : Nat) :
    (s.setRestore p n).pending = s.pending := rfl

/-! ### setCell -/

@[simp] theorem State.setCell_csu (s : State) (p : PortNo) (c : Condition) (x : Cell) :
    (s.setCell p c x).csu = s.csu := rfl
@[simp] theorem State.setCell_pbi (s : State) (p : PortNo) (c : Condition) (x : Cell) :
    (s.setCell p c x).pbi = s.pbi := rfl
@[simp] theorem State.setCell_pvu (s : State) (p : PortNo) (c : Condition) (x : Cell) :
    (s.setCell p c x).pvu = s.pvu := rfl
@[simp] theorem State.setCell_au (s : State) (p : PortNo) (c : Condition) (x : Cell) :
    (s.setCell p c x).au = s.au := rfl
@[simp] theorem State.setCell_uls (s : State) (p : PortNo) (c : Condition) (x : Cell) :
    (s.setCell p c x).uls = s.uls := rfl
@[simp] theorem State.setCell_pqm (s : State) (p : PortNo) (c : Condition) (x : Cell) :
    (s.setCell p c x).pqm = s.pqm := rfl
@[simp] theorem State.setCell_ptc (s : State) (p : PortNo) (c : Condition) (x : Cell) :
    (s.setCell p c x).ptc = s.ptc := rfl
@[simp] theorem State.setCell_leu (s : State) (p : PortNo) (c : Condition) (x : Cell) :
    (s.setCell p c x).leu = { s.leu with ports := tput s.leu.ports p ((s.line p).setCell c x) } := rfl
@[simp] theorem State.setCell_tsq (s : State) (p : PortNo) (c : Condition) (x : Cell) :
    (s.setCell p c x).tsq = s.tsq := rfl
@[simp] theorem State.setCell_mfe (s : State) (p : PortNo) (c : Condition) (x : Cell) :
    (s.setCell p c x).mfe = s.mfe := rfl
@[simp] theorem State.setCell_pmg (s : State) (p : PortNo) (c : Condition) (x : Cell) :
    (s.setCell p c x).pmg = s.pmg := rfl
@[simp] theorem State.setCell_delivered (s : State) (p : PortNo) (c : Condition) (x : Cell) :
    (s.setCell p c x).delivered = s.delivered := rfl
@[simp] theorem State.setCell_freeDraws (s : State) (p : PortNo) (c : Condition) (x : Cell) :
    (s.setCell p c x).freeDraws = s.freeDraws := rfl
@[simp] theorem State.setCell_pending (s : State) (p : PortNo) (c : Condition) (x : Cell) :
    (s.setCell p c x).pending = s.pending := rfl

/-! ### setPbi -/

@[simp] theorem State.setPbi_csu (s : State) (b : Pbi) : (s.setPbi b).csu = s.csu := rfl
@[simp] theorem State.setPbi_pbi (s : State) (b : Pbi) : (s.setPbi b).pbi = b := rfl
@[simp] theorem State.setPbi_pvu (s : State) (b : Pbi) : (s.setPbi b).pvu = s.pvu := rfl
@[simp] theorem State.setPbi_au (s : State) (b : Pbi) : (s.setPbi b).au = s.au := rfl
@[simp] theorem State.setPbi_uls (s : State) (b : Pbi) : (s.setPbi b).uls = s.uls := rfl
@[simp] theorem State.setPbi_pqm (s : State) (b : Pbi) : (s.setPbi b).pqm = s.pqm := rfl
@[simp] theorem State.setPbi_ptc (s : State) (b : Pbi) : (s.setPbi b).ptc = s.ptc := rfl
@[simp] theorem State.setPbi_leu (s : State) (b : Pbi) : (s.setPbi b).leu = s.leu := rfl
@[simp] theorem State.setPbi_tsq (s : State) (b : Pbi) : (s.setPbi b).tsq = s.tsq := rfl
@[simp] theorem State.setPbi_mfe (s : State) (b : Pbi) : (s.setPbi b).mfe = s.mfe := rfl
@[simp] theorem State.setPbi_pmg (s : State) (b : Pbi) : (s.setPbi b).pmg = s.pmg := rfl
@[simp] theorem State.setPbi_delivered (s : State) (b : Pbi) : (s.setPbi b).delivered = s.delivered := rfl
@[simp] theorem State.setPbi_freeDraws (s : State) (b : Pbi) : (s.setPbi b).freeDraws = s.freeDraws := rfl
@[simp] theorem State.setPbi_pending (s : State) (b : Pbi) : (s.setPbi b).pending = s.pending := rfl

/-! ### setMfe -/

@[simp] theorem State.setMfe_csu (s : State) (m : Mfe) : (s.setMfe m).csu = s.csu := rfl
@[simp] theorem State.setMfe_pbi (s : State) (m : Mfe) : (s.setMfe m).pbi = s.pbi := rfl
@[simp] theorem State.setMfe_pvu (s : State) (m : Mfe) : (s.setMfe m).pvu = s.pvu := rfl
@[simp] theorem State.setMfe_au (s : State) (m : Mfe) : (s.setMfe m).au = s.au := rfl
@[simp] theorem State.setMfe_uls (s : State) (m : Mfe) : (s.setMfe m).uls = s.uls := rfl
@[simp] theorem State.setMfe_pqm (s : State) (m : Mfe) : (s.setMfe m).pqm = s.pqm := rfl
@[simp] theorem State.setMfe_ptc (s : State) (m : Mfe) : (s.setMfe m).ptc = s.ptc := rfl
@[simp] theorem State.setMfe_leu (s : State) (m : Mfe) : (s.setMfe m).leu = s.leu := rfl
@[simp] theorem State.setMfe_tsq (s : State) (m : Mfe) : (s.setMfe m).tsq = s.tsq := rfl
@[simp] theorem State.setMfe_mfe (s : State) (m : Mfe) : (s.setMfe m).mfe = m := rfl
@[simp] theorem State.setMfe_pmg (s : State) (m : Mfe) : (s.setMfe m).pmg = s.pmg := rfl
@[simp] theorem State.setMfe_delivered (s : State) (m : Mfe) : (s.setMfe m).delivered = s.delivered := rfl
@[simp] theorem State.setMfe_freeDraws (s : State) (m : Mfe) : (s.setMfe m).freeDraws = s.freeDraws := rfl
@[simp] theorem State.setMfe_pending (s : State) (m : Mfe) : (s.setMfe m).pending = s.pending := rfl

/-! ### setPvu -/

@[simp] theorem State.setPvu_csu (s : State) (v : Pvu) : (s.setPvu v).csu = s.csu := rfl
@[simp] theorem State.setPvu_pbi (s : State) (v : Pvu) : (s.setPvu v).pbi = s.pbi := rfl
@[simp] theorem State.setPvu_pvu (s : State) (v : Pvu) : (s.setPvu v).pvu = v := rfl
@[simp] theorem State.setPvu_au (s : State) (v : Pvu) : (s.setPvu v).au = s.au := rfl
@[simp] theorem State.setPvu_uls (s : State) (v : Pvu) : (s.setPvu v).uls = s.uls := rfl
@[simp] theorem State.setPvu_pqm (s : State) (v : Pvu) : (s.setPvu v).pqm = s.pqm := rfl
@[simp] theorem State.setPvu_ptc (s : State) (v : Pvu) : (s.setPvu v).ptc = s.ptc := rfl
@[simp] theorem State.setPvu_leu (s : State) (v : Pvu) : (s.setPvu v).leu = s.leu := rfl
@[simp] theorem State.setPvu_tsq (s : State) (v : Pvu) : (s.setPvu v).tsq = s.tsq := rfl
@[simp] theorem State.setPvu_mfe (s : State) (v : Pvu) : (s.setPvu v).mfe = s.mfe := rfl
@[simp] theorem State.setPvu_pmg (s : State) (v : Pvu) : (s.setPvu v).pmg = s.pmg := rfl
@[simp] theorem State.setPvu_delivered (s : State) (v : Pvu) : (s.setPvu v).delivered = s.delivered := rfl
@[simp] theorem State.setPvu_freeDraws (s : State) (v : Pvu) : (s.setPvu v).freeDraws = s.freeDraws := rfl
@[simp] theorem State.setPvu_pending (s : State) (v : Pvu) : (s.setPvu v).pending = s.pending := rfl

/-! ### setAu -/

@[simp] theorem State.setAu_csu (s : State) (a : Au) : (s.setAu a).csu = s.csu := rfl
@[simp] theorem State.setAu_pbi (s : State) (a : Au) : (s.setAu a).pbi = s.pbi := rfl
@[simp] theorem State.setAu_pvu (s : State) (a : Au) : (s.setAu a).pvu = s.pvu := rfl
@[simp] theorem State.setAu_au (s : State) (a : Au) : (s.setAu a).au = a := rfl
@[simp] theorem State.setAu_uls (s : State) (a : Au) : (s.setAu a).uls = s.uls := rfl
@[simp] theorem State.setAu_pqm (s : State) (a : Au) : (s.setAu a).pqm = s.pqm := rfl
@[simp] theorem State.setAu_ptc (s : State) (a : Au) : (s.setAu a).ptc = s.ptc := rfl
@[simp] theorem State.setAu_leu (s : State) (a : Au) : (s.setAu a).leu = s.leu := rfl
@[simp] theorem State.setAu_tsq (s : State) (a : Au) : (s.setAu a).tsq = s.tsq := rfl
@[simp] theorem State.setAu_mfe (s : State) (a : Au) : (s.setAu a).mfe = s.mfe := rfl
@[simp] theorem State.setAu_pmg (s : State) (a : Au) : (s.setAu a).pmg = s.pmg := rfl
@[simp] theorem State.setAu_delivered (s : State) (a : Au) : (s.setAu a).delivered = s.delivered := rfl
@[simp] theorem State.setAu_freeDraws (s : State) (a : Au) : (s.setAu a).freeDraws = s.freeDraws := rfl
@[simp] theorem State.setAu_pending (s : State) (a : Au) : (s.setAu a).pending = s.pending := rfl

/-! ### setTsq -/

@[simp] theorem State.setTsq_csu (s : State) (t : Tsq) : (s.setTsq t).csu = s.csu := rfl
@[simp] theorem State.setTsq_pbi (s : State) (t : Tsq) : (s.setTsq t).pbi = s.pbi := rfl
@[simp] theorem State.setTsq_pvu (s : State) (t : Tsq) : (s.setTsq t).pvu = s.pvu := rfl
@[simp] theorem State.setTsq_au (s : State) (t : Tsq) : (s.setTsq t).au = s.au := rfl
@[simp] theorem State.setTsq_uls (s : State) (t : Tsq) : (s.setTsq t).uls = s.uls := rfl
@[simp] theorem State.setTsq_pqm (s : State) (t : Tsq) : (s.setTsq t).pqm = s.pqm := rfl
@[simp] theorem State.setTsq_ptc (s : State) (t : Tsq) : (s.setTsq t).ptc = s.ptc := rfl
@[simp] theorem State.setTsq_leu (s : State) (t : Tsq) : (s.setTsq t).leu = s.leu := rfl
@[simp] theorem State.setTsq_tsq (s : State) (t : Tsq) : (s.setTsq t).tsq = t := rfl
@[simp] theorem State.setTsq_mfe (s : State) (t : Tsq) : (s.setTsq t).mfe = s.mfe := rfl
@[simp] theorem State.setTsq_pmg (s : State) (t : Tsq) : (s.setTsq t).pmg = s.pmg := rfl
@[simp] theorem State.setTsq_delivered (s : State) (t : Tsq) : (s.setTsq t).delivered = s.delivered := rfl
@[simp] theorem State.setTsq_freeDraws (s : State) (t : Tsq) : (s.setTsq t).freeDraws = s.freeDraws := rfl
@[simp] theorem State.setTsq_pending (s : State) (t : Tsq) : (s.setTsq t).pending = s.pending := rfl

/-! ### setUls -/

@[simp] theorem State.setUls_csu (s : State) (u : Uls) : (s.setUls u).csu = s.csu := rfl
@[simp] theorem State.setUls_pbi (s : State) (u : Uls) : (s.setUls u).pbi = s.pbi := rfl
@[simp] theorem State.setUls_pvu (s : State) (u : Uls) : (s.setUls u).pvu = s.pvu := rfl
@[simp] theorem State.setUls_au (s : State) (u : Uls) : (s.setUls u).au = s.au := rfl
@[simp] theorem State.setUls_uls (s : State) (u : Uls) : (s.setUls u).uls = u := rfl
@[simp] theorem State.setUls_pqm (s : State) (u : Uls) : (s.setUls u).pqm = s.pqm := rfl
@[simp] theorem State.setUls_ptc (s : State) (u : Uls) : (s.setUls u).ptc = s.ptc := rfl
@[simp] theorem State.setUls_leu (s : State) (u : Uls) : (s.setUls u).leu = s.leu := rfl
@[simp] theorem State.setUls_tsq (s : State) (u : Uls) : (s.setUls u).tsq = s.tsq := rfl
@[simp] theorem State.setUls_mfe (s : State) (u : Uls) : (s.setUls u).mfe = s.mfe := rfl
@[simp] theorem State.setUls_pmg (s : State) (u : Uls) : (s.setUls u).pmg = s.pmg := rfl
@[simp] theorem State.setUls_delivered (s : State) (u : Uls) : (s.setUls u).delivered = s.delivered := rfl
@[simp] theorem State.setUls_freeDraws (s : State) (u : Uls) : (s.setUls u).freeDraws = s.freeDraws := rfl
@[simp] theorem State.setUls_pending (s : State) (u : Uls) : (s.setUls u).pending = s.pending := rfl

/-! ### setPmg -/

@[simp] theorem State.setPmg_csu (s : State) (g : Pmg) : (s.setPmg g).csu = s.csu := rfl
@[simp] theorem State.setPmg_pbi (s : State) (g : Pmg) : (s.setPmg g).pbi = s.pbi := rfl
@[simp] theorem State.setPmg_pvu (s : State) (g : Pmg) : (s.setPmg g).pvu = s.pvu := rfl
@[simp] theorem State.setPmg_au (s : State) (g : Pmg) : (s.setPmg g).au = s.au := rfl
@[simp] theorem State.setPmg_uls (s : State) (g : Pmg) : (s.setPmg g).uls = s.uls := rfl
@[simp] theorem State.setPmg_pqm (s : State) (g : Pmg) : (s.setPmg g).pqm = s.pqm := rfl
@[simp] theorem State.setPmg_ptc (s : State) (g : Pmg) : (s.setPmg g).ptc = s.ptc := rfl
@[simp] theorem State.setPmg_leu (s : State) (g : Pmg) : (s.setPmg g).leu = s.leu := rfl
@[simp] theorem State.setPmg_tsq (s : State) (g : Pmg) : (s.setPmg g).tsq = s.tsq := rfl
@[simp] theorem State.setPmg_mfe (s : State) (g : Pmg) : (s.setPmg g).mfe = s.mfe := rfl
@[simp] theorem State.setPmg_pmg (s : State) (g : Pmg) : (s.setPmg g).pmg = g := rfl
@[simp] theorem State.setPmg_delivered (s : State) (g : Pmg) : (s.setPmg g).delivered = s.delivered := rfl
@[simp] theorem State.setPmg_freeDraws (s : State) (g : Pmg) : (s.setPmg g).freeDraws = s.freeDraws := rfl
@[simp] theorem State.setPmg_pending (s : State) (g : Pmg) : (s.setPmg g).pending = s.pending := rfl

/-! ### setCsu -/

@[simp] theorem State.setCsu_csu (s : State) (c : Csu) : (s.setCsu c).csu = c := rfl
@[simp] theorem State.setCsu_pbi (s : State) (c : Csu) : (s.setCsu c).pbi = s.pbi := rfl
@[simp] theorem State.setCsu_pvu (s : State) (c : Csu) : (s.setCsu c).pvu = s.pvu := rfl
@[simp] theorem State.setCsu_au (s : State) (c : Csu) : (s.setCsu c).au = s.au := rfl
@[simp] theorem State.setCsu_uls (s : State) (c : Csu) : (s.setCsu c).uls = s.uls := rfl
@[simp] theorem State.setCsu_pqm (s : State) (c : Csu) : (s.setCsu c).pqm = s.pqm := rfl
@[simp] theorem State.setCsu_ptc (s : State) (c : Csu) : (s.setCsu c).ptc = s.ptc := rfl
@[simp] theorem State.setCsu_leu (s : State) (c : Csu) : (s.setCsu c).leu = s.leu := rfl
@[simp] theorem State.setCsu_tsq (s : State) (c : Csu) : (s.setCsu c).tsq = s.tsq := rfl
@[simp] theorem State.setCsu_mfe (s : State) (c : Csu) : (s.setCsu c).mfe = s.mfe := rfl
@[simp] theorem State.setCsu_pmg (s : State) (c : Csu) : (s.setCsu c).pmg = s.pmg := rfl
@[simp] theorem State.setCsu_delivered (s : State) (c : Csu) : (s.setCsu c).delivered = s.delivered := rfl
@[simp] theorem State.setCsu_freeDraws (s : State) (c : Csu) : (s.setCsu c).freeDraws = s.freeDraws := rfl
@[simp] theorem State.setCsu_pending (s : State) (c : Csu) : (s.setCsu c).pending = s.pending := rfl

/-! ### setLeu -/

@[simp] theorem State.setLeu_csu (s : State) (l : Leu) : (s.setLeu l).csu = s.csu := rfl
@[simp] theorem State.setLeu_pbi (s : State) (l : Leu) : (s.setLeu l).pbi = s.pbi := rfl
@[simp] theorem State.setLeu_pvu (s : State) (l : Leu) : (s.setLeu l).pvu = s.pvu := rfl
@[simp] theorem State.setLeu_au (s : State) (l : Leu) : (s.setLeu l).au = s.au := rfl
@[simp] theorem State.setLeu_uls (s : State) (l : Leu) : (s.setLeu l).uls = s.uls := rfl
@[simp] theorem State.setLeu_pqm (s : State) (l : Leu) : (s.setLeu l).pqm = s.pqm := rfl
@[simp] theorem State.setLeu_ptc (s : State) (l : Leu) : (s.setLeu l).ptc = s.ptc := rfl
@[simp] theorem State.setLeu_leu (s : State) (l : Leu) : (s.setLeu l).leu = l := rfl
@[simp] theorem State.setLeu_tsq (s : State) (l : Leu) : (s.setLeu l).tsq = s.tsq := rfl
@[simp] theorem State.setLeu_mfe (s : State) (l : Leu) : (s.setLeu l).mfe = s.mfe := rfl
@[simp] theorem State.setLeu_pmg (s : State) (l : Leu) : (s.setLeu l).pmg = s.pmg := rfl
@[simp] theorem State.setLeu_delivered (s : State) (l : Leu) : (s.setLeu l).delivered = s.delivered := rfl
@[simp] theorem State.setLeu_freeDraws (s : State) (l : Leu) : (s.setLeu l).freeDraws = s.freeDraws := rfl
@[simp] theorem State.setLeu_pending (s : State) (l : Leu) : (s.setLeu l).pending = s.pending := rfl

/-! ### setPending -/

@[simp] theorem State.setPending_csu (s : State) (q : List Instr) : (s.setPending q).csu = s.csu := rfl
@[simp] theorem State.setPending_pbi (s : State) (q : List Instr) : (s.setPending q).pbi = s.pbi := rfl
@[simp] theorem State.setPending_pvu (s : State) (q : List Instr) : (s.setPending q).pvu = s.pvu := rfl
@[simp] theorem State.setPending_au (s : State) (q : List Instr) : (s.setPending q).au = s.au := rfl
@[simp] theorem State.setPending_uls (s : State) (q : List Instr) : (s.setPending q).uls = s.uls := rfl
@[simp] theorem State.setPending_pqm (s : State) (q : List Instr) : (s.setPending q).pqm = s.pqm := rfl
@[simp] theorem State.setPending_ptc (s : State) (q : List Instr) : (s.setPending q).ptc = s.ptc := rfl
@[simp] theorem State.setPending_leu (s : State) (q : List Instr) : (s.setPending q).leu = s.leu := rfl
@[simp] theorem State.setPending_tsq (s : State) (q : List Instr) : (s.setPending q).tsq = s.tsq := rfl
@[simp] theorem State.setPending_mfe (s : State) (q : List Instr) : (s.setPending q).mfe = s.mfe := rfl
@[simp] theorem State.setPending_pmg (s : State) (q : List Instr) : (s.setPending q).pmg = s.pmg := rfl
@[simp] theorem State.setPending_delivered (s : State) (q : List Instr) :
    (s.setPending q).delivered = s.delivered := rfl
@[simp] theorem State.setPending_freeDraws (s : State) (q : List Instr) :
    (s.setPending q).freeDraws = s.freeDraws := rfl
@[simp] theorem State.setPending_pending (s : State) (q : List Instr) : (s.setPending q).pending = q := rfl

/-! ### setRunning -/

@[simp] theorem State.setRunning_csu (s : State) (t : Option RunningTest) : (s.setRunning t).csu = s.csu := rfl
@[simp] theorem State.setRunning_pbi (s : State) (t : Option RunningTest) : (s.setRunning t).pbi = s.pbi := rfl
@[simp] theorem State.setRunning_pvu (s : State) (t : Option RunningTest) : (s.setRunning t).pvu = s.pvu := rfl
@[simp] theorem State.setRunning_au (s : State) (t : Option RunningTest) : (s.setRunning t).au = s.au := rfl
@[simp] theorem State.setRunning_uls (s : State) (t : Option RunningTest) : (s.setRunning t).uls = s.uls := rfl
@[simp] theorem State.setRunning_pqm (s : State) (t : Option RunningTest) : (s.setRunning t).pqm = s.pqm := rfl
@[simp] theorem State.setRunning_ptc (s : State) (t : Option RunningTest) : (s.setRunning t).ptc = s.ptc := rfl
@[simp] theorem State.setRunning_leu (s : State) (t : Option RunningTest) : (s.setRunning t).leu = s.leu := rfl
@[simp] theorem State.setRunning_tsq (s : State) (t : Option RunningTest) :
    (s.setRunning t).tsq = { s.tsq with running := t } := rfl
@[simp] theorem State.setRunning_mfe (s : State) (t : Option RunningTest) : (s.setRunning t).mfe = s.mfe := rfl
@[simp] theorem State.setRunning_pmg (s : State) (t : Option RunningTest) : (s.setRunning t).pmg = s.pmg := rfl
@[simp] theorem State.setRunning_delivered (s : State) (t : Option RunningTest) :
    (s.setRunning t).delivered = s.delivered := rfl
@[simp] theorem State.setRunning_freeDraws (s : State) (t : Option RunningTest) :
    (s.setRunning t).freeDraws = s.freeDraws := rfl
@[simp] theorem State.setRunning_pending (s : State) (t : Option RunningTest) :
    (s.setRunning t).pending = s.pending := rfl

/-! ### dueSelect -/

@[simp] theorem State.dueSelect_csu (s : State) : s.dueSelect.csu = s.csu := rfl
@[simp] theorem State.dueSelect_pbi (s : State) : s.dueSelect.pbi = s.pbi := rfl
@[simp] theorem State.dueSelect_pvu (s : State) : s.dueSelect.pvu = s.pvu := rfl
@[simp] theorem State.dueSelect_au (s : State) : s.dueSelect.au = s.au := rfl
@[simp] theorem State.dueSelect_uls (s : State) : s.dueSelect.uls = s.uls := rfl
@[simp] theorem State.dueSelect_pqm (s : State) : s.dueSelect.pqm = s.pqm := rfl
@[simp] theorem State.dueSelect_ptc (s : State) : s.dueSelect.ptc = s.ptc := rfl
@[simp] theorem State.dueSelect_leu (s : State) : s.dueSelect.leu = s.leu := rfl
@[simp] theorem State.dueSelect_tsq (s : State) : s.dueSelect.tsq = { s.tsq with selectDue := true } := rfl
@[simp] theorem State.dueSelect_mfe (s : State) : s.dueSelect.mfe = s.mfe := rfl
@[simp] theorem State.dueSelect_pmg (s : State) : s.dueSelect.pmg = s.pmg := rfl
@[simp] theorem State.dueSelect_delivered (s : State) : s.dueSelect.delivered = s.delivered := rfl
@[simp] theorem State.dueSelect_freeDraws (s : State) : s.dueSelect.freeDraws = s.freeDraws := rfl
@[simp] theorem State.dueSelect_pending (s : State) : s.dueSelect.pending = s.pending := rfl

/-! ### setWanted -/

@[simp] theorem State.setWanted_csu (s : State) (w : Bool) : (s.setWanted w).csu = s.csu := rfl
@[simp] theorem State.setWanted_pbi (s : State) (w : Bool) : (s.setWanted w).pbi = s.pbi := rfl
@[simp] theorem State.setWanted_pvu (s : State) (w : Bool) :
    (s.setWanted w).pvu = { s.pvu with accessWanted := w } := rfl
@[simp] theorem State.setWanted_au (s : State) (w : Bool) : (s.setWanted w).au = s.au := rfl
@[simp] theorem State.setWanted_uls (s : State) (w : Bool) : (s.setWanted w).uls = s.uls := rfl
@[simp] theorem State.setWanted_pqm (s : State) (w : Bool) : (s.setWanted w).pqm = s.pqm := rfl
@[simp] theorem State.setWanted_ptc (s : State) (w : Bool) : (s.setWanted w).ptc = s.ptc := rfl
@[simp] theorem State.setWanted_leu (s : State) (w : Bool) : (s.setWanted w).leu = s.leu := rfl
@[simp] theorem State.setWanted_tsq (s : State) (w : Bool) : (s.setWanted w).tsq = s.tsq := rfl
@[simp] theorem State.setWanted_mfe (s : State) (w : Bool) : (s.setWanted w).mfe = s.mfe := rfl
@[simp] theorem State.setWanted_pmg (s : State) (w : Bool) : (s.setWanted w).pmg = s.pmg := rfl
@[simp] theorem State.setWanted_delivered (s : State) (w : Bool) : (s.setWanted w).delivered = s.delivered := rfl
@[simp] theorem State.setWanted_freeDraws (s : State) (w : Bool) : (s.setWanted w).freeDraws = s.freeDraws := rfl
@[simp] theorem State.setWanted_pending (s : State) (w : Bool) : (s.setWanted w).pending = s.pending := rfl

/-! ### freeBuffers -/

@[simp] theorem State.freeBuffers_csu (s : State) (n : Nat) : (s.freeBuffers n).csu = s.csu := rfl
@[simp] theorem State.freeBuffers_pbi (s : State) (n : Nat) : (s.freeBuffers n).pbi = s.pbi := rfl
@[simp] theorem State.freeBuffers_pvu (s : State) (n : Nat) : (s.freeBuffers n).pvu = s.pvu := rfl
@[simp] theorem State.freeBuffers_au (s : State) (n : Nat) : (s.freeBuffers n).au = s.au := rfl
@[simp] theorem State.freeBuffers_uls (s : State) (n : Nat) : (s.freeBuffers n).uls = s.uls := rfl
@[simp] theorem State.freeBuffers_pqm (s : State) (n : Nat) :
    (s.freeBuffers n).pqm = { s.pqm with free := s.pqm.free + n } := rfl
@[simp] theorem State.freeBuffers_ptc (s : State) (n : Nat) : (s.freeBuffers n).ptc = s.ptc := rfl
@[simp] theorem State.freeBuffers_leu (s : State) (n : Nat) : (s.freeBuffers n).leu = s.leu := rfl
@[simp] theorem State.freeBuffers_tsq (s : State) (n : Nat) : (s.freeBuffers n).tsq = s.tsq := rfl
@[simp] theorem State.freeBuffers_mfe (s : State) (n : Nat) : (s.freeBuffers n).mfe = s.mfe := rfl
@[simp] theorem State.freeBuffers_pmg (s : State) (n : Nat) : (s.freeBuffers n).pmg = s.pmg := rfl
@[simp] theorem State.freeBuffers_delivered (s : State) (n : Nat) : (s.freeBuffers n).delivered = s.delivered := rfl
@[simp] theorem State.freeBuffers_freeDraws (s : State) (n : Nat) : (s.freeBuffers n).freeDraws = s.freeDraws := rfl
@[simp] theorem State.freeBuffers_pending (s : State) (n : Nat) : (s.freeBuffers n).pending = s.pending := rfl

/-! ### takeBuffers -/

@[simp] theorem State.takeBuffers_csu (s : State) (n : Nat) : (s.takeBuffers n).csu = s.csu := rfl
@[simp] theorem State.takeBuffers_pbi (s : State) (n : Nat) : (s.takeBuffers n).pbi = s.pbi := rfl
@[simp] theorem State.takeBuffers_pvu (s : State) (n : Nat) : (s.takeBuffers n).pvu = s.pvu := rfl
@[simp] theorem State.takeBuffers_au (s : State) (n : Nat) : (s.takeBuffers n).au = s.au := rfl
@[simp] theorem State.takeBuffers_uls (s : State) (n : Nat) : (s.takeBuffers n).uls = s.uls := rfl
@[simp] theorem State.takeBuffers_pqm (s : State) (n : Nat) :
    (s.takeBuffers n).pqm = { s.pqm with free := s.pqm.free - n } := rfl
@[simp] theorem State.takeBuffers_ptc (s : State) (n : Nat) : (s.takeBuffers n).ptc = s.ptc := rfl
@[simp] theorem State.takeBuffers_leu (s : State) (n : Nat) : (s.takeBuffers n).leu = s.leu := rfl
@[simp] theorem State.takeBuffers_tsq (s : State) (n : Nat) : (s.takeBuffers n).tsq = s.tsq := rfl
@[simp] theorem State.takeBuffers_mfe (s : State) (n : Nat) : (s.takeBuffers n).mfe = s.mfe := rfl
@[simp] theorem State.takeBuffers_pmg (s : State) (n : Nat) : (s.takeBuffers n).pmg = s.pmg := rfl
@[simp] theorem State.takeBuffers_delivered (s : State) (n : Nat) : (s.takeBuffers n).delivered = s.delivered := rfl
@[simp] theorem State.takeBuffers_freeDraws (s : State) (n : Nat) : (s.takeBuffers n).freeDraws = s.freeDraws := rfl
@[simp] theorem State.takeBuffers_pending (s : State) (n : Nat) : (s.takeBuffers n).pending = s.pending := rfl

/-! ### drawn -/

@[simp] theorem State.drawn_csu (s : State) (n : Nat) : (s.drawn n).csu = s.csu := rfl
@[simp] theorem State.drawn_pbi (s : State) (n : Nat) : (s.drawn n).pbi = s.pbi := rfl
@[simp] theorem State.drawn_pvu (s : State) (n : Nat) : (s.drawn n).pvu = s.pvu := rfl
@[simp] theorem State.drawn_au (s : State) (n : Nat) : (s.drawn n).au = s.au := rfl
@[simp] theorem State.drawn_uls (s : State) (n : Nat) : (s.drawn n).uls = s.uls := rfl
@[simp] theorem State.drawn_pqm (s : State) (n : Nat) : (s.drawn n).pqm = s.pqm := rfl
@[simp] theorem State.drawn_ptc (s : State) (n : Nat) : (s.drawn n).ptc = s.ptc := rfl
@[simp] theorem State.drawn_leu (s : State) (n : Nat) : (s.drawn n).leu = s.leu := rfl
@[simp] theorem State.drawn_tsq (s : State) (n : Nat) : (s.drawn n).tsq = s.tsq := rfl
@[simp] theorem State.drawn_mfe (s : State) (n : Nat) : (s.drawn n).mfe = s.mfe := rfl
@[simp] theorem State.drawn_pmg (s : State) (n : Nat) : (s.drawn n).pmg = s.pmg := rfl
@[simp] theorem State.drawn_delivered (s : State) (n : Nat) : (s.drawn n).delivered = s.delivered := rfl
@[simp] theorem State.drawn_freeDraws (s : State) (n : Nat) : (s.drawn n).freeDraws = s.freeDraws + n := rfl
@[simp] theorem State.drawn_pending (s : State) (n : Nat) : (s.drawn n).pending = s.pending := rfl

/-! ### noticeLeave -/

@[simp] theorem State.noticeLeave_csu (s : State) : s.noticeLeave.csu = s.csu := rfl
@[simp] theorem State.noticeLeave_pbi (s : State) : s.noticeLeave.pbi = s.pbi := rfl
@[simp] theorem State.noticeLeave_pvu (s : State) : s.noticeLeave.pvu = s.pvu := rfl
@[simp] theorem State.noticeLeave_au (s : State) : s.noticeLeave.au = s.au := rfl
@[simp] theorem State.noticeLeave_uls (s : State) : s.noticeLeave.uls = s.uls := rfl
@[simp] theorem State.noticeLeave_pqm (s : State) : s.noticeLeave.pqm = s.pqm := rfl
@[simp] theorem State.noticeLeave_ptc (s : State) : s.noticeLeave.ptc = s.ptc := rfl
@[simp] theorem State.noticeLeave_leu (s : State) : s.noticeLeave.leu = { s.leu with leaveDue := true } := rfl
@[simp] theorem State.noticeLeave_tsq (s : State) : s.noticeLeave.tsq = s.tsq := rfl
@[simp] theorem State.noticeLeave_mfe (s : State) : s.noticeLeave.mfe = s.mfe := rfl
@[simp] theorem State.noticeLeave_pmg (s : State) : s.noticeLeave.pmg = s.pmg := rfl
@[simp] theorem State.noticeLeave_delivered (s : State) : s.noticeLeave.delivered = s.delivered := rfl
@[simp] theorem State.noticeLeave_freeDraws (s : State) : s.noticeLeave.freeDraws = s.freeDraws := rfl
@[simp] theorem State.noticeLeave_pending (s : State) : s.noticeLeave.pending = s.pending := rfl

/-! ### countTxDropped -/

@[simp] theorem State.countTxDropped_csu (s : State) : s.countTxDropped.csu = s.csu := rfl
@[simp] theorem State.countTxDropped_pbi (s : State) :
    s.countTxDropped.pbi = { s.pbi with txDropped := satInc s.pbi.txDropped } := rfl
@[simp] theorem State.countTxDropped_pvu (s : State) : s.countTxDropped.pvu = s.pvu := rfl
@[simp] theorem State.countTxDropped_au (s : State) : s.countTxDropped.au = s.au := rfl
@[simp] theorem State.countTxDropped_uls (s : State) : s.countTxDropped.uls = s.uls := rfl
@[simp] theorem State.countTxDropped_pqm (s : State) : s.countTxDropped.pqm = s.pqm := rfl
@[simp] theorem State.countTxDropped_ptc (s : State) : s.countTxDropped.ptc = s.ptc := rfl
@[simp] theorem State.countTxDropped_leu (s : State) : s.countTxDropped.leu = s.leu := rfl
@[simp] theorem State.countTxDropped_tsq (s : State) : s.countTxDropped.tsq = s.tsq := rfl
@[simp] theorem State.countTxDropped_mfe (s : State) : s.countTxDropped.mfe = s.mfe := rfl
@[simp] theorem State.countTxDropped_pmg (s : State) : s.countTxDropped.pmg = s.pmg := rfl
@[simp] theorem State.countTxDropped_delivered (s : State) : s.countTxDropped.delivered = s.delivered := rfl
@[simp] theorem State.countTxDropped_freeDraws (s : State) : s.countTxDropped.freeDraws = s.freeDraws := rfl
@[simp] theorem State.countTxDropped_pending (s : State) : s.countTxDropped.pending = s.pending := rfl

/-! ### requestAu -/

@[simp] theorem State.requestAu_csu (s : State) (q : AuRequest) : (s.requestAu q).csu = s.csu := rfl
@[simp] theorem State.requestAu_pbi (s : State) (q : AuRequest) : (s.requestAu q).pbi = s.pbi := rfl
@[simp] theorem State.requestAu_pvu (s : State) (q : AuRequest) : (s.requestAu q).pvu = s.pvu := rfl
@[simp] theorem State.requestAu_au (s : State) (q : AuRequest) : (s.requestAu q).au = s.au.request q := rfl
@[simp] theorem State.requestAu_uls (s : State) (q : AuRequest) : (s.requestAu q).uls = s.uls := rfl
@[simp] theorem State.requestAu_pqm (s : State) (q : AuRequest) : (s.requestAu q).pqm = s.pqm := rfl
@[simp] theorem State.requestAu_ptc (s : State) (q : AuRequest) : (s.requestAu q).ptc = s.ptc := rfl
@[simp] theorem State.requestAu_leu (s : State) (q : AuRequest) : (s.requestAu q).leu = s.leu := rfl
@[simp] theorem State.requestAu_tsq (s : State) (q : AuRequest) : (s.requestAu q).tsq = s.tsq := rfl
@[simp] theorem State.requestAu_mfe (s : State) (q : AuRequest) : (s.requestAu q).mfe = s.mfe := rfl
@[simp] theorem State.requestAu_pmg (s : State) (q : AuRequest) : (s.requestAu q).pmg = s.pmg := rfl
@[simp] theorem State.requestAu_delivered (s : State) (q : AuRequest) : (s.requestAu q).delivered = s.delivered := rfl
@[simp] theorem State.requestAu_freeDraws (s : State) (q : AuRequest) : (s.requestAu q).freeDraws = s.freeDraws := rfl
@[simp] theorem State.requestAu_pending (s : State) (q : AuRequest) : (s.requestAu q).pending = s.pending := rfl

/-! ### nextAu -/

@[simp] theorem State.nextAu_csu (s : State) : s.nextAu.csu = s.csu := rfl
@[simp] theorem State.nextAu_pbi (s : State) : s.nextAu.pbi = s.pbi := rfl
@[simp] theorem State.nextAu_pvu (s : State) : s.nextAu.pvu = s.pvu := rfl
@[simp] theorem State.nextAu_au (s : State) : s.nextAu.au = s.au.next := rfl
@[simp] theorem State.nextAu_uls (s : State) : s.nextAu.uls = s.uls := rfl
@[simp] theorem State.nextAu_pqm (s : State) : s.nextAu.pqm = s.pqm := rfl
@[simp] theorem State.nextAu_ptc (s : State) : s.nextAu.ptc = s.ptc := rfl
@[simp] theorem State.nextAu_leu (s : State) : s.nextAu.leu = s.leu := rfl
@[simp] theorem State.nextAu_tsq (s : State) : s.nextAu.tsq = s.tsq := rfl
@[simp] theorem State.nextAu_mfe (s : State) : s.nextAu.mfe = s.mfe := rfl
@[simp] theorem State.nextAu_pmg (s : State) : s.nextAu.pmg = s.pmg := rfl
@[simp] theorem State.nextAu_delivered (s : State) : s.nextAu.delivered = s.delivered := rfl
@[simp] theorem State.nextAu_freeDraws (s : State) : s.nextAu.freeDraws = s.freeDraws := rfl
@[simp] theorem State.nextAu_pending (s : State) : s.nextAu.pending = s.pending := rfl

/-! ### One entry of a table -/

@[simp] theorem State.port_setPort (s : State) (p : PortNo) (r : PortRecord) : (s.setPort p r).port p = r := by
  simp [State.port]

theorem State.port_setPort_ne (s : State) {p q : PortNo} (r : PortRecord) (h : p ≠ q) :
    (s.setPort p r).port q = s.port q := by
  simp [State.port, tget_tput_ne _ _ h]

@[simp] theorem State.pq_setPq (s : State) (p : PortNo) (q : PqmPort) : (s.setPq p q).pq p = q := by
  simp [State.pq]

theorem State.pq_setPq_ne (s : State) {p q : PortNo} (x : PqmPort) (h : p ≠ q) : (s.setPq p x).pq q = s.pq q := by
  simp [State.pq, tget_tput_ne _ _ h]

@[simp] theorem State.line_setLine (s : State) (p : PortNo) (l : LeuPort) : (s.setLine p l).line p = l := by
  simp [State.line]

theorem State.line_setLine_ne (s : State) {p q : PortNo} (l : LeuPort) (h : p ≠ q) :
    (s.setLine p l).line q = s.line q := by
  simp [State.line, tget_tput_ne _ _ h]

@[simp] theorem State.claimOf_setClaim (s : State) (r : ResourceNo) (c : ClaimEntry) :
    (s.setClaim r c).claimOf r = c := by
  simp [State.claimOf]

theorem State.claimOf_setClaim_ne (s : State) {r q : ResourceNo} (c : ClaimEntry) (h : r ≠ q) :
    (s.setClaim r c).claimOf q = s.claimOf q := by
  simp [State.claimOf, tget_tput_ne _ _ h]

@[simp] theorem State.restoreOf_setRestore (s : State) (p : PortNo) (n : Nat) : (s.setRestore p n).restoreOf p = n := by
  simp [State.restoreOf]

@[simp] theorem State.cell_setCell (s : State) (p : PortNo) (c : Condition) (x : Cell) :
    (s.setCell p c x).cell p c = x := by
  cases c <;> simp [State.cell, State.setCell, LeuPort.cell, LeuPort.setCell]

theorem State.port_of_ptc {s t : State} (h : t.ptc = s.ptc) (p : PortNo) : t.port p = s.port p := by
  simp [State.port, h]

theorem State.pq_of_pqm {s t : State} (h : t.pqm = s.pqm) (p : PortNo) : t.pq p = s.pq p := by
  simp [State.pq, h]

theorem State.line_of_leu {s t : State} (h : t.leu = s.leu) (p : PortNo) : t.line p = s.line p := by
  simp [State.line, h]

theorem State.claimOf_of_pvu {s t : State} (h : t.pvu = s.pvu) (r : ResourceNo) : t.claimOf r = s.claimOf r := by
  simp [State.claimOf, h]

end Sys2Proof.Machine
end

