-- ==== Sys2Proof/Laws/Moves.lean ====
section
/-!
SUPPORT. What the operations inside one event can do to the state, said once. `Moves s t` holds when t comes from s by
the elementary updates of the transmit queue, claims, ports, cells, tests, front end, restore counters and buffers that
the operations of Machine/ are made of. Every operation has one lemma `..._moves` (Laws/MovesOf.lean); what every move
keeps is proved here by induction: `Moves.fixed`, `Moves.pool`, `Moves.limits`, `Moves.lineSafe`.
-/
namespace Sys2Proof.Machine

/-! ### All ports -/

theorem mem_allPorts (p : PortNo) : p ∈ allPorts := by revert p; decide

theorem allPorts_all {f : PortNo → Bool} : allPorts.all f = true ↔ ∀ p, f p = true := by
  simp [List.all_eq_true, mem_allPorts]

theorem tmap_tput {α β : Type} {n : Nat} (f : α → β) (t : Vector α n) (i : Fin n) (a : α) (h : f a = f (tget t i)) :
    tmap f (tput t i a) = tmap f t := by
  apply Vector.ext
  intro j hj
  have e : ∀ u : Vector α n, (tmap f u)[j] = f (tget u ⟨j, hj⟩) := by
    intro u; simp [tmap, tget]
  rw [e, e]
  by_cases hij : i = ⟨j, hj⟩
  · subst hij; simp [h]
  · rw [tget_tput_ne _ _ hij]

/-! ### What no move touches -/

/-- A line's comparator levels alone. -/
def LeuPort.levels (l : LeuPort) : LeuPort := LeuPort.read l.fvdLevel l.gfltLevel

/-- The part of the state that no move touches: everything but the PBI, the engine's own claims, the queues and
buffers, the port records, the cells, the tests, the front end and the restore counters. -/
def State.fixed (s : State) : State :=
  { s with
    pbi := Pbi.powerOn
    pvu := { s.pvu with claims := Pvu.powerOn.claims, accessWanted := false }
    uls := { s.uls with grantMap := [], inFlight := [], retransmit := [], admitted := 0 }
    pqm := Pqm.powerOn
    ptc := State.reset.ptc
    leu := { ports := tmap LeuPort.levels s.leu.ports, report := s.leu.report, leaveDue := false }
    tsq := Tsq.powerOn
    mfe := Mfe.powerOn
    pmg := { s.pmg with restore := Pmg.powerOn.restore } }

/-- An update of the queues and the lists that hold buffers, which keeps the pool in order. -/
structure Lane (s t : State) : Prop where
  same : t = { s with
    pqm := t.pqm
    uls := { s.uls with grantMap := t.uls.grantMap, inFlight := t.uls.inFlight, retransmit := t.uls.retransmit,
                        admitted := t.uls.admitted } }
  pool : s.poolOk = true → t.poolOk = true

theorem Lane.refl (s : State) : Lane s s := ⟨rfl, id⟩

theorem Lane.trans {s t u : State} (a : Lane s t) (b : Lane t u) : Lane s u :=
  ⟨by rw [b.same, a.same], b.pool ∘ a.pool⟩

/-- Moves that may take a claim out of HELD before the relays and the source have followed. -/
inductive Soft : State → State → Prop
  | refl (s : State) : Soft s s
  | trans {s t u : State} : Soft s t → Soft t u → Soft s u
  | offer (s : State) (m : Message) (r : Bool) : Soft s (s.setPbi (s.pbi.offer m r))
  | dropped (s : State) : Soft s s.countTxDropped
  | claim (s : State) (r : ResourceNo) (c : ClaimEntry)
    (ok : (s.claimOf r).ok s.csu.address = true → c.ok s.csu.address = true) : Soft s (s.setClaim r c)
  | wanted (s : State) (w : Bool) : Soft s (s.setWanted w)

/-- The elementary moves and their chains. -/
inductive Moves : State → State → Prop
  | refl (s : State) : Moves s s
  | trans {s t u : State} : Moves s t → Moves t u → Moves s u
  | offer (s : State) (m : Message) (r : Bool) : Moves s (s.setPbi (s.pbi.offer m r))
  | dropped (s : State) : Moves s s.countTxDropped
  | claim (s : State) (r : ResourceNo) (c : ClaimEntry) (h : (s.claimOf r).own = .held → c.own = .held)
    (ok : (s.claimOf r).ok s.csu.address = true → c.ok s.csu.address = true) : Moves s (s.setClaim r c)
  | wanted (s : State) (w : Bool) : Moves s (s.setWanted w)
  | enforced {s t : State} : Soft s t → Moves s t.enforce
  | enforceSource (s : State) : Moves s s.enforceSource
  | port (s : State) (p : PortNo) (r : PortRecord) (ok : (s.port p).ok = true → r.ok = true)
    (fe : r.relayFrontEnd = (s.port p).relayFrontEnd)
    (ac : (s.port p).ok = true → r.relayAccess = true → (s.port p).relayAccess = true ∧ r.state = (s.port p).state ∧
      r.returnState.isNone = (s.port p).returnState.isNone)
    (src : (s.port p).state = .inTest → r.state ≠ .inTest → s.mfe.source = .off ∨ s.mfe.connected ≠ some p)
    (unf : s.csu.state = .unconfigured → (s.port p).state = .unfitted → r.state = .unfitted) :
    Moves s (s.setPort p r)
  | openFrontEnd (s : State) (p : PortNo) : Moves s (s.openFrontEnd p)
  | connectFrontEnd (s : State) (p : PortNo) (h : s.frontEndFree p = true) : Moves s (s.connectFrontEnd p)
  | connectAccess (s : State) (p : PortNo) (h : s.accessBusFree p = true) : Moves s (s.connectAccess p)
  | mfe (s : State) (m : Mfe) (conn : m.connected = s.mfe.connected)
    (src : m.source ≠ .off → s.mfe.source ≠ .off ∨ s.sourceAllowed = true) : Moves s (s.setMfe m)
  | line (s : State) (p : PortNo) (l : LeuPort) (h : l.levels = (s.line p).levels) : Moves s (s.setLine p l)
  | leave (s : State) (b : Bool) : Moves s { s with leu := { s.leu with leaveDue := b } }
  | tsq (s : State) (t : Tsq) (q : s.tsq.queue.length ≤ queueCapacity → t.queue.length ≤ queueCapacity)
    (st : s.tsq.stack.length ≤ stackCapacity → t.stack.length ≤ stackCapacity)
    (lg : s.tsq.log.length ≤ logCapacity → t.log.length ≤ logCapacity) : Moves s (s.setTsq t)
  | restore (s : State) (p : PortNo) (n : Nat) : Moves s (s.setRestore p n)
  | lane {s t : State} (h : Lane s t) : Moves s t

/-! ### Chains -/

/-- Chains, the last move first. -/
theorem Moves.after {s t u : State} (b : Moves t u) (a : Moves s t) : Moves s u := .trans a b

/-- Chains, the last move first. -/
theorem Soft.after {s t u : State} (b : Soft t u) (a : Soft s t) : Soft s u := .trans a b

theorem Moves.ite {c : Prop} [Decidable c] {s t u : State} (ht : c → Moves s t) (hu : ¬c → Moves s u) :
    Moves s (if c then t else u) := by
  split
  · exact ht ‹_›
  · exact hu ‹_›

/-- A fold of operations that each move is a move. -/
theorem Moves.foldl {α : Type} {f : State → α → State} (h : ∀ s a, Moves s (f s a)) (l : List α) (s : State) :
    Moves s (l.foldl f s) := by
  induction l generalizing s with
  | nil => exact .refl s
  | cons a l ih => exact .trans (h s a) (ih (f s a))

theorem Soft.foldl {α : Type} {f : State → α → State} (h : ∀ s a, Soft s (f s a)) (l : List α) (s : State) :
    Soft s (l.foldl f s) := by
  induction l generalizing s with
  | nil => exact .refl s
  | cons a l ih => exact .trans (h s a) (ih (f s a))

theorem Lane.foldl {α : Type} {f : State → α → State} (h : ∀ s a, Lane s (f s a)) (l : List α) (s : State) :
    Lane s (l.foldl f s) := by
  induction l generalizing s with
  | nil => exact .refl s
  | cons a l ih => exact .trans (h s a) (ih (f s a))

/-! ### What the relays' following does -/

/-- The state with every port record replaced. -/
def State.setPtc (s : State) (v : Vector PortRecord 12) : State := { s with ptc := v }

theorem State.enforceAccessOf_same (s : State) (p : PortNo) : ∃ v, s.enforceAccessOf p = s.setPtc v := by
  unfold State.enforceAccessOf; split
  · exact ⟨_, rfl⟩
  · exact ⟨s.ptc, rfl⟩

theorem State.enforceSource_same (s : State) : ∃ m, s.enforceSource = s.setMfe m := by
  unfold State.enforceSource; split
  · exact ⟨_, rfl⟩
  · exact ⟨s.mfe, rfl⟩

theorem State.enforceAccessOf_port (s : State) (p q : PortNo) :
    (s.enforceAccessOf p).port q = s.port q ∨
      (p = q ∧ (s.enforceAccessOf p).port q = { s.port q with relayAccess := false }) := by
  unfold State.enforceAccessOf
  split
  · by_cases h : p = q
    · subst h; right; simp
    · left; exact State.port_setPort_ne s _ h
  · left; rfl

theorem State.enforceAccess_same (l : List PortNo) (s : State) : ∃ v, l.foldl State.enforceAccessOf s = s.setPtc v := by
  induction l generalizing s with
  | nil => exact ⟨s.ptc, rfl⟩
  | cons p l ih =>
    obtain ⟨v, hv⟩ := s.enforceAccessOf_same p
    obtain ⟨w, hw⟩ := ih (s.enforceAccessOf p)
    exact ⟨w, by rw [List.foldl_cons, hw, hv]; rfl⟩

/-- The access-bus relays follow: each record changes only by opening its relay. -/
theorem State.enforceAccess_port (l : List PortNo) (s : State) (q : PortNo) :
    (l.foldl State.enforceAccessOf s).port q = s.port q ∨
      (l.foldl State.enforceAccessOf s).port q = { s.port q with relayAccess := false } := by
  induction l generalizing s with
  | nil => exact .inl rfl
  | cons p l ih =>
    rw [List.foldl_cons]
    rcases ih (s.enforceAccessOf p) with h | h <;> rcases s.enforceAccessOf_port p q with g | ⟨-, g⟩ <;> simp [h, g]

/-- What the following of relays and source changes: port records and the MFE. -/
theorem State.enforce_same (s : State) : ∃ v m, s.enforce = (s.setPtc v).setMfe m := by
  obtain ⟨v, hv⟩ := State.enforceAccess_same allPorts s
  obtain ⟨m, hm⟩ := (allPorts.foldl State.enforceAccessOf s).enforceSource_same
  exact ⟨v, m, by rw [State.enforce, hm, hv]⟩

/-! ### The fixed part -/

theorem Soft.fixed {s t : State} (h : Soft s t) : t.fixed = s.fixed := by
  induction h with
  | trans _ _ ih1 ih2 => rw [ih2, ih1]
  | _ => rfl

theorem State.enforce_fixed (s : State) : s.enforce.fixed = s.fixed := by
  obtain ⟨v, m, h⟩ := s.enforce_same
  rw [h]; rfl

theorem State.setLine_fixed (s : State) (p : PortNo) (l : LeuPort) (h : l.levels = (s.line p).levels) :
    (s.setLine p l).fixed = s.fixed := by
  have e := tmap_tput LeuPort.levels s.leu.ports p l h
  simp only [State.fixed, State.setLine, e]

theorem State.openFrontEnd_fixed (s : State) (p : PortNo) : (s.openFrontEnd p).fixed = s.fixed := by
  unfold State.openFrontEnd; dsimp only; split <;> rfl

theorem Lane.fixed {s t : State} (h : Lane s t) : t.fixed = s.fixed := by
  rw [h.same]; rfl

/-- What no move touches. -/
theorem Moves.fixed {s t : State} (h : Moves s t) : t.fixed = s.fixed := by
  induction h with
  | trans _ _ ih1 ih2 => rw [ih2, ih1]
  | enforced h => rw [State.enforce_fixed, h.fixed]
  | enforceSource s => obtain ⟨m, h⟩ := s.enforceSource_same; rw [h]; rfl
  | line s p l h => exact s.setLine_fixed p l h
  | openFrontEnd s p => exact s.openFrontEnd_fixed p
  | lane h => exact h.fixed
  | _ => rfl

/-! ### The pool -/

theorem State.poolOk_congr {s t : State} (hq : t.pqm = s.pqm) (hf : t.uls.inFlight = s.uls.inFlight)
    (hr : t.uls.retransmit = s.uls.retransmit) : t.poolOk = s.poolOk := by
  have h : t.queued = s.queued := by funext p; simp [State.queued, State.pq, hq]
  have g : t.pq = s.pq := by funext p; simp [State.pq, hq]
  unfold State.poolOk State.buffersHeld
  rw [h, g, hq, hf, hr]

theorem Soft.pool {s t : State} (h : Soft s t) : t.poolOk = s.poolOk := by
  induction h with
  | trans _ _ ih1 ih2 => rw [ih2, ih1]
  | _ => exact State.poolOk_congr rfl rfl rfl

/-- R95: every move keeps the pool in order. -/
theorem Moves.pool {s t : State} (h : Moves s t) (hs : s.poolOk = true) : t.poolOk = true := by
  induction h with
  | refl => exact hs
  | trans _ _ ih1 ih2 => exact ih2 (ih1 hs)
  | @enforced s t h =>
    obtain ⟨v, m, e⟩ := t.enforce_same
    rw [e, ← hs, ← h.pool]; exact State.poolOk_congr rfl rfl rfl
  | enforceSource s => obtain ⟨m, e⟩ := s.enforceSource_same; rw [e]; exact hs
  | openFrontEnd s p => unfold State.openFrontEnd; dsimp only; split <;> exact hs
  | lane h => exact h.pool hs
  | _ => exact hs

/-! ### The limits -/

theorem Pbi.join_length (b : Pbi) (m : Message) (r : Bool) : (b.join m r).queue.length = b.queue.length + 1 := by
  simp [Pbi.join]

theorem dropOrder_lt {q : List TxEntry} {e : TxEntry} (h : e ∈ q) : (dropOrder q e.order).length < q.length := by
  unfold dropOrder
  refine List.length_filter_lt_length_iff_exists.mpr ⟨e, h, by simp⟩

/-- R9, R12: an offer keeps the transmit queue within its limit. -/
theorem Pbi.offer_length (b : Pbi) (m : Message) (r : Bool) (h : b.queue.length ≤ txCapacity) :
    (b.offer m r).queue.length ≤ txCapacity := by
  unfold Pbi.offer
  split
  · simpa [Pbi.supersede] using h
  · split
    · rw [Pbi.join_length]; omega
    · split
      · exact h
      · split
        · exact h
        · rename_i e he
          have hm : e ∈ b.queue := by
            have := List.mem_of_find?_eq_some he
            simpa using this
          have := dropOrder_lt hm
          rw [Pbi.join_length]
          show (dropOrder b.queue e.order).length + 1 ≤ txCapacity
          omega

theorem State.withinLimits_iff (s : State) : s.withinLimits = true ↔
    s.pbi.queue.length ≤ txCapacity ∧ s.tsq.queue.length ≤ queueCapacity ∧ s.tsq.stack.length ≤ stackCapacity ∧
      s.tsq.log.length ≤ logCapacity := by
  simp [State.withinLimits, and_assoc]

theorem Soft.limits {s t : State} (h : Soft s t) (hs : s.withinLimits = true) : t.withinLimits = true := by
  induction h with
  | trans _ _ ih1 ih2 => exact ih2 (ih1 hs)
  | offer s m r =>
    rw [State.withinLimits_iff] at hs ⊢
    exact ⟨Pbi.offer_length _ _ _ hs.1, hs.2⟩
  | _ => exact hs

/-- R9, R134, R146, R153: every move keeps the lists within their limits. -/
theorem Moves.limits {s t : State} (h : Moves s t) (hs : s.withinLimits = true) : t.withinLimits = true := by
  induction h with
  | refl => exact hs
  | trans _ _ ih1 ih2 => exact ih2 (ih1 hs)
  | offer s m r => exact (Soft.offer s m r).limits hs
  | @enforced s t h =>
    have ht := h.limits hs
    obtain ⟨v, m, e⟩ := t.enforce_same
    rw [e]; exact ht
  | enforceSource s => obtain ⟨m, e⟩ := s.enforceSource_same; rw [e]; exact hs
  | openFrontEnd s p => unfold State.openFrontEnd; dsimp only; split <;> exact hs
  | tsq s t q st lg =>
    rw [State.withinLimits_iff] at hs ⊢
    exact ⟨hs.1, q hs.2.1, st hs.2.2.1, lg hs.2.2.2⟩
  | lane h => rw [h.same]; exact hs
  | _ => exact hs

/-! ### Holders -/

/-- The parts of `ClaimEntry.ok`. -/
theorem ClaimEntry.ok_iff (c : ClaimEntry) (a : Nat) : c.ok a = true ↔
    (c.own = .held ↔ c.holder = some a) ∧ (c.own = .held → c.stamp = c.ownStamp) := by
  simp [ClaimEntry.ok, Classical.or_iff_not_imp_left]

theorem mem_allResources (r : ResourceNo) : r ∈ allResources := by revert r; decide

theorem State.claimsOk_iff (s : State) : s.claimsOk = true ↔ ∀ r, (s.claimOf r).ok s.csu.address = true := by
  simp [State.claimsOk, List.all_eq_true, mem_allResources]

theorem State.claimsOk_congr {s t : State} (hc : t.claimOf = s.claimOf) (ha : t.csu = s.csu) :
    t.claimsOk = s.claimsOk := by
  unfold State.claimsOk; rw [hc, ha]

theorem State.claimsOk_setClaim {s : State} {r : ResourceNo} {c : ClaimEntry}
    (ok : (s.claimOf r).ok s.csu.address = true → c.ok s.csu.address = true) (h : s.claimsOk = true) :
    (s.setClaim r c).claimsOk = true := by
  rw [State.claimsOk_iff] at h ⊢
  intro q
  by_cases e : r = q
  · subst e; rw [State.claimOf_setClaim]; exact ok (h r)
  · rw [State.claimOf_setClaim_ne s c e]; exact h q

theorem Soft.claims {s t : State} (h : Soft s t) (hs : s.claimsOk = true) : t.claimsOk = true := by
  induction h with
  | trans _ _ ih1 ih2 => exact ih2 (ih1 hs)
  | claim s r c ok => exact State.claimsOk_setClaim ok hs
  | _ => exact hs

theorem State.enforce_claimsOk (s : State) : s.enforce.claimsOk = s.claimsOk := by
  obtain ⟨v, m, e⟩ := s.enforce_same
  exact State.claimsOk_congr (by rw [e]; rfl) (by rw [e]; rfl)

/-- R28: every move keeps the view's holders and stamps in agreement with the own states. -/
theorem Moves.claims {s t : State} (h : Moves s t) (hs : s.claimsOk = true) : t.claimsOk = true := by
  induction h with
  | refl => exact hs
  | trans _ _ ih1 ih2 => exact ih2 (ih1 hs)
  | claim s r c _ ok => exact State.claimsOk_setClaim ok hs
  | enforced h => rw [State.enforce_claimsOk]; exact h.claims hs
  | enforceSource s => obtain ⟨m, e⟩ := s.enforceSource_same; rw [e]; exact hs
  | openFrontEnd s p => unfold State.openFrontEnd; dsimp only; split <;> exact hs
  | lane h => rw [h.same]; exact hs
  | _ => exact hs

/-! ### Relays, source and access bus -/

/-- The parts of `lineSafe`, one by one. -/
structure State.Safe (s : State) : Prop where
  ok : ∀ p, (s.port p).ok = true
  frontEnd : ∀ p, (s.port p).relayFrontEnd = true ↔ s.mfe.connected = some p
  access : ∀ p q, (s.port p).relayAccess = true → (s.port q).relayAccess = true → p = q
  unfitted : s.csu.state = .unconfigured → ∀ p, (s.port p).state = .unfitted
  source : s.mfe.source = .off ∨ s.sourceAllowed = true
  allowed : ∀ p, (s.port p).relayAccess = true → s.accessAllowed p = true

theorem State.portsOk_iff (s : State) : s.portsOk = true ↔
    (∀ p, (s.port p).ok = true) ∧ (∀ p, (s.port p).relayFrontEnd = true ↔ s.mfe.connected = some p) ∧
      (∀ p q, (s.port p).relayAccess = true → (s.port q).relayAccess = true → p = q) ∧
      (s.csu.state = .unconfigured → ∀ p, (s.port p).state = .unfitted) := by
  unfold State.portsOk State.relaysOk State.unfittedOk
  simp only [Bool.and_eq_true, allPorts_all, Bool.or_eq_true, decide_eq_true_eq, and_assoc, Bool.not_eq_true',
    beq_iff_eq]
  refine and_congr .rfl (and_congr ?_ (and_congr ?_ ?_))
  · refine forall_congr' fun p => ?_
    by_cases h : s.mfe.connected = some p <;> simp [h]
  · refine forall_congr' fun p => forall_congr' fun q => ?_
    cases (s.port p).relayAccess <;> cases (s.port q).relayAccess <;> simp
  · constructor
    · rintro (h | h) hu
      · exact absurd hu h
      · exact h
    · intro h
      by_cases hu : s.csu.state = .unconfigured
      · exact .inr (h hu)
      · exact .inl hu

theorem State.lineSafe_iff (s : State) : s.lineSafe = true ↔ s.Safe := by
  unfold State.lineSafe
  rw [Bool.and_eq_true, Bool.and_eq_true, State.portsOk_iff]
  unfold State.sourceOk State.accessOk
  simp only [Bool.or_eq_true, decide_eq_true_eq, allPorts_all, Bool.not_eq_true']
  constructor
  · rintro ⟨⟨⟨a, b, c, d⟩, e⟩, f⟩
    exact ⟨a, b, c, d, e, fun p h => (f p).resolve_left (by simp [h])⟩
  · rintro ⟨a, b, c, d, e, f⟩
    refine ⟨⟨⟨a, b, c, d⟩, e⟩, fun p => ?_⟩
    cases h : (s.port p).relayAccess
    · exact .inl rfl
    · exact .inr (f p h)

/-- The parts of `PortRecord.ok`. -/
theorem PortRecord.ok_frontEnd {r : PortRecord} (h : r.ok = true) (f : r.relayFrontEnd = true) :
    r.state = .inTest ∧ r.relayAccess = false := by
  revert h
  unfold PortRecord.ok
  cases hs : r.state <;> cases ha : r.relayAccess <;> simp [f]

theorem PortRecord.ok_openFrontEnd {r : PortRecord} (h : r.ok = true) : PortRecord.ok { r with relayFrontEnd := false } = true := by
  revert h
  unfold PortRecord.ok
  simp only [Bool.and_eq_true]
  rintro ⟨⟨⟨⟨⟨⟨⟨⟨a, b⟩, c⟩, d⟩, e⟩, f⟩, g⟩, i⟩, j⟩
  exact ⟨⟨⟨⟨⟨⟨⟨⟨a, by simp⟩, c⟩, by simp⟩, e⟩, f⟩, g⟩, i⟩, j⟩

theorem PortRecord.ok_openAccess {r : PortRecord} (h : r.ok = true) : PortRecord.ok { r with relayAccess := false } = true := by
  revert h
  unfold PortRecord.ok
  simp only [Bool.and_eq_true]
  rintro ⟨⟨⟨⟨⟨⟨⟨⟨a, b⟩, c⟩, d⟩, e⟩, f⟩, g⟩, i⟩, j⟩
  exact ⟨⟨⟨⟨⟨⟨⟨⟨a, b⟩, by simp⟩, by simp⟩, e⟩, f⟩, g⟩, i⟩, j⟩

theorem State.enforceAccessOf_allowed (s : State) (p q : PortNo) :
    (s.enforceAccessOf p).accessAllowed q = s.accessAllowed q := by
  obtain ⟨v, hv⟩ := s.enforceAccessOf_same p
  have hc : (s.enforceAccessOf p).claimOf = s.claimOf := by rw [hv]; rfl
  have hb : (s.enforceAccessOf p).binderOf = s.binderOf := by rw [hv]; rfl
  unfold State.accessAllowed
  rw [hc, hb]
  rcases s.enforceAccessOf_port p q with h | ⟨-, h⟩ <;> rw [h]

theorem State.enforceAccess_allowed (l : List PortNo) (s : State) (q : PortNo) :
    (l.foldl State.enforceAccessOf s).accessAllowed q = s.accessAllowed q := by
  induction l generalizing s with
  | nil => rfl
  | cons p l ih => rw [List.foldl_cons, ih, State.enforceAccessOf_allowed]

/-- R112: after the relays have followed, a relay that is closed was closed and may be. -/
theorem State.enforceAccess_done (l : List PortNo) (s : State) (q : PortNo) (hq : q ∈ l)
    (h : ((l.foldl State.enforceAccessOf s).port q).relayAccess = true) :
    (s.port q).relayAccess = true ∧ s.accessAllowed q = true := by
  induction l generalizing s with
  | nil => cases hq
  | cons p l ih =>
    rw [List.foldl_cons] at h
    have before : ∀ u : State, ((l.foldl State.enforceAccessOf u).port q).relayAccess = true →
        (u.port q).relayAccess = true := by
      intro u hu
      rcases State.enforceAccess_port l u q with g | g <;> rw [g] at hu
      · exact hu
      · cases hu
    have after : (s.enforceAccessOf p).port q = s.port q := by
      rcases s.enforceAccessOf_port p q with g | ⟨-, g⟩
      · exact g
      · have := before _ h; rw [g] at this; cases this
    rcases List.mem_cons.mp hq with rfl | hl
    · have hr := before _ h
      have hr' := hr; rw [after] at hr'
      refine ⟨hr', ?_⟩
      cases ha : s.accessAllowed q
      · unfold State.enforceAccessOf at hr
        rw [if_pos ⟨hr', ha⟩] at hr
        simp at hr
      · rfl
    · have := ih _ hl h
      rw [after, State.enforceAccessOf_allowed] at this
      exact this

theorem State.sourceAllowed_congr {s t : State} (h : ∀ p, s.mfe.connected = some p → (t.port p).state = (s.port p).state)
    (hm : t.mfe.connected = s.mfe.connected) (hf : ∀ p, (t.line p).fvdLevel = (s.line p).fvdLevel)
    (hg : t.pmg.tier = s.pmg.tier) (hc : t.claimOf = s.claimOf) (hb : t.binderOf = s.binderOf) :
    t.sourceAllowed = s.sourceAllowed := by
  unfold State.sourceAllowed
  rw [hm]
  cases hp : s.mfe.connected with
  | none => rfl
  | some p => simp only [h p hp, hf, hg, hc, hb]

/-- R155: after the source has followed, it is off or allowed. -/
theorem State.enforceSource_done (s : State) : s.enforceSource.mfe.source = .off ∨ s.enforceSource.sourceAllowed = true := by
  unfold State.enforceSource
  split
  · exact .inl rfl
  · rename_i h
    by_cases hs : s.mfe.source = .off
    · exact .inl hs
    · right
      cases ha : s.sourceAllowed
      · exact absurd ⟨hs, ha⟩ h
      · rfl

/-- What a soft move does not change. -/
structure SameWires (s t : State) : Prop where
  ptc : t.ptc = s.ptc
  mfe : t.mfe = s.mfe
  leu : t.leu = s.leu
  pmg : t.pmg = s.pmg
  csu : t.csu = s.csu

theorem Soft.wires {s t : State} (h : Soft s t) : SameWires s t := by
  induction h with
  | trans _ _ ih1 ih2 =>
    exact ⟨ih2.ptc.trans ih1.ptc, ih2.mfe.trans ih1.mfe, ih2.leu.trans ih1.leu, ih2.pmg.trans ih1.pmg,
      ih2.csu.trans ih1.csu⟩
  | _ => exact ⟨rfl, rfl, rfl, rfl, rfl⟩

theorem State.enforceSource_port (s : State) (p : PortNo) : s.enforceSource.port p = s.port p := by
  obtain ⟨m, h⟩ := s.enforceSource_same; rw [h]; rfl

theorem State.enforceSource_connected (s : State) : s.enforceSource.mfe.connected = s.mfe.connected := by
  unfold State.enforceSource; split <;> rfl

theorem State.enforce_port (s : State) (p : PortNo) :
    s.enforce.port p = s.port p ∨ s.enforce.port p = { s.port p with relayAccess := false } := by
  unfold State.enforce
  rw [State.enforceSource_port]
  exact State.enforceAccess_port allPorts s p

theorem State.enforce_connected (s : State) : s.enforce.mfe.connected = s.mfe.connected := by
  unfold State.enforce
  rw [State.enforceSource_connected]
  obtain ⟨v, hv⟩ := State.enforceAccess_same allPorts s
  rw [hv]; rfl

theorem State.accessAllowed_congr {s t : State} {p : PortNo} (h : (t.port p).state = (s.port p).state)
    (hr : (t.port p).returnState.isNone = (s.port p).returnState.isNone) (hc : t.claimOf = s.claimOf)
    (hb : t.binderOf = s.binderOf) : t.accessAllowed p = s.accessAllowed p := by
  unfold State.accessAllowed; rw [h, hr, hc, hb]

theorem State.Safe.opened {s u : State} (h : s.Safe) (csu : u.csu = s.csu) (conn : u.mfe.connected = s.mfe.connected)
    (port : ∀ p, u.port p = s.port p ∨ u.port p = { s.port p with relayAccess := false })
    (src : u.mfe.source = .off ∨ u.sourceAllowed = true)
    (allowed : ∀ p, (u.port p).relayAccess = true → u.accessAllowed p = true) : u.Safe := by
  have back : ∀ p, (u.port p).relayAccess = true → (s.port p).relayAccess = true := by
    intro p hp
    rcases port p with g | g <;> rw [g] at hp
    · exact hp
    · cases hp
  refine ⟨fun p => ?_, fun p => ?_, fun p q hp hq => h.access p q (back p hp) (back q hq), fun hu p => ?_, src, allowed⟩
  · rcases port p with g | g <;> rw [g]
    · exact h.ok p
    · exact PortRecord.ok_openAccess (h.ok p)
  · rw [conn, ← h.frontEnd p]
    rcases port p with g | g <;> rw [g]
  · rw [csu] at hu
    have := h.unfitted hu p
    rcases port p with g | g <;> rw [g] <;> exact this

theorem State.enforce_allowed (t : State) (p : PortNo) (hp : (t.enforce.port p).relayAccess = true) :
    t.enforce.accessAllowed p = true := by
  have hp' := hp
  unfold State.enforce at hp'
  rw [State.enforceSource_port] at hp'
  obtain ⟨-, ha⟩ := State.enforceAccess_done allPorts t p (mem_allPorts p) hp'
  have g := t.enforce_port p
  obtain ⟨v, m, e⟩ := t.enforce_same
  have hc : t.enforce.claimOf = t.claimOf := by rw [e]; rfl
  have hb : t.enforce.binderOf = t.binderOf := by rw [e]; rfl
  clear hp hp' e
  revert g hc hb
  generalize t.enforce = u
  intro g hc hb
  rw [State.accessAllowed_congr (s := t) _ _ hc hb]
  · exact ha
  · rcases g with g | g <;> rw [g]
  · rcases g with g | g <;> rw [g]

/-- R112, R155: once the relays and the source have followed, a state whose records were in order is safe. -/
theorem State.enforce_safe {s t : State} (h : s.Safe) (w : SameWires s t) : t.enforce.Safe := by
  have port : ∀ p, t.port p = s.port p := fun p => by unfold State.port; rw [w.ptc]
  have csu : t.enforce.csu = t.csu := by
    obtain ⟨v, m, e⟩ := t.enforce_same
    exact (congrArg State.csu e).trans rfl
  have conn : t.enforce.mfe.connected = t.mfe.connected := t.enforce_connected
  have src : t.enforce.mfe.source = .off ∨ t.enforce.sourceAllowed = true := by
    unfold State.enforce
    generalize allPorts.foldl State.enforceAccessOf t = u
    exact u.enforceSource_done
  have all := t.enforce_allowed
  have opens := t.enforce_port
  revert csu conn src all opens
  generalize t.enforce = u
  intro csu conn src all opens
  exact h.opened (csu.trans w.csu) (conn.trans (congrArg Mfe.connected w.mfe))
    (fun p => by rw [← port p]; exact opens p) src all

/-- A state whose port records, relays, source, levels, tier, claims and configuration are the same is as safe. -/
theorem State.Safe.congr {s t : State} (h : s.Safe) (ptc : t.ptc = s.ptc) (conn : t.mfe.connected = s.mfe.connected)
    (src : t.mfe.source ≠ .off → s.mfe.source ≠ .off ∨ s.sourceAllowed = true)
    (lev : ∀ p, (t.line p).fvdLevel = (s.line p).fvdLevel) (tier : t.pmg.tier = s.pmg.tier)
    (held : ∀ r, (s.claimOf r).own = .held → (t.claimOf r).own = .held) (csu : t.csu = s.csu) : t.Safe := by
  have port : ∀ p, t.port p = s.port p := fun p => by unfold State.port; rw [ptc]
  have binder : ∀ p, t.binderOf p = s.binderOf p := fun p => by unfold State.binderOf State.part; rw [csu]
  refine ⟨fun p => by rw [port]; exact h.ok p, fun p => by rw [port, conn]; exact h.frontEnd p,
    fun p q => by rw [port, port]; exact h.access p q, fun hu p => by rw [port]; exact h.unfitted (csu ▸ hu) p, ?_, fun p hp => ?_⟩
  · by_cases hs : t.mfe.source = .off
    · exact .inl hs
    · right
      have : s.sourceAllowed = true := by
        rcases src hs with h' | h'
        · exact h.source.resolve_left h'
        · exact h'
      revert this
      unfold State.sourceAllowed
      rw [conn, tier]
      cases s.mfe.connected with
      | none => simp
      | some p =>
        simp only [Bool.and_eq_true, decide_eq_true_eq, port, lev, binder]
        rintro ⟨⟨⟨a, b⟩, c⟩, d⟩
        exact ⟨⟨⟨a, b⟩, c⟩, held _ d⟩
  · rw [port] at hp
    have := h.allowed p hp
    revert this
    unfold State.accessAllowed
    simp only [Bool.and_eq_true, decide_eq_true_eq, port, binder]
    rintro ⟨⟨⟨a, b⟩, c⟩, d⟩
    exact ⟨⟨⟨a, b⟩, held _ c⟩, held _ d⟩

theorem State.held_setClaim {s : State} {r : ResourceNo} {c : ClaimEntry} (h : (s.claimOf r).own = .held → c.own = .held)
    (q : ResourceNo) (hq : (s.claimOf q).own = .held) : ((s.setClaim r c).claimOf q).own = .held := by
  by_cases e : r = q
  · subst e; simpa using h hq
  · rw [State.claimOf_setClaim_ne s c e]; exact hq

theorem State.fvdLevel_setLine {s : State} {p : PortNo} {l : LeuPort} (h : l.levels = (s.line p).levels) (q : PortNo) :
    ((s.setLine p l).line q).fvdLevel = (s.line q).fvdLevel := by
  by_cases e : p = q
  · subst e; simpa [LeuPort.levels, LeuPort.read] using congrArg LeuPort.fvdLevel h
  · rw [State.line_setLine_ne s l e]

theorem State.Safe.enforceSource {s : State} (h : s.Safe) : s.enforceSource.Safe := by
  unfold State.enforceSource
  split
  · exact h.congr rfl rfl (fun c => absurd rfl c) (fun _ => rfl) rfl (fun _ => id) rfl
  · exact h

theorem State.Safe.setPort {s : State} (h : s.Safe) (p : PortNo) (r : PortRecord)
    (ok : (s.port p).ok = true → r.ok = true) (fe : r.relayFrontEnd = (s.port p).relayFrontEnd)
    (ac : (s.port p).ok = true → r.relayAccess = true → (s.port p).relayAccess = true ∧ r.state = (s.port p).state ∧
      r.returnState.isNone = (s.port p).returnState.isNone)
    (src : (s.port p).state = .inTest → r.state ≠ .inTest → s.mfe.source = .off ∨ s.mfe.connected ≠ some p)
    (unf : s.csu.state = .unconfigured → (s.port p).state = .unfitted → r.state = .unfitted) : (s.setPort p r).Safe := by
  have back : ∀ q, ((s.setPort p r).port q).relayAccess = true → (s.port q).relayAccess = true := by
    intro q hq
    by_cases e : p = q
    · subst e; rw [State.port_setPort] at hq; exact (ac (h.ok p) hq).1
    · rwa [State.port_setPort_ne s r e] at hq
  refine ⟨fun q => ?_, fun q => ?_, fun a b ha hb => h.access a b (back a ha) (back b hb), fun hu q => ?_, ?_, fun q hq => ?_⟩
  · by_cases e : p = q
    · subst e; rw [State.port_setPort]; exact ok (h.ok p)
    · rw [State.port_setPort_ne s r e]; exact h.ok q
  · rw [State.setPort_mfe, ← h.frontEnd q]
    by_cases e : p = q
    · subst e; rw [State.port_setPort, fe]
    · rw [State.port_setPort_ne s r e]
  · have := h.unfitted hu q
    by_cases e : p = q
    · subst e; rw [State.port_setPort]; exact unf hu this
    · rw [State.port_setPort_ne s r e]; exact this
  · by_cases hs : s.mfe.source = .off
    · exact .inl hs
    · right
      have ha := h.source.resolve_left hs
      rw [← ha]
      apply State.sourceAllowed_congr (s := s) (t := s.setPort p r) _ rfl (fun _ => rfl) rfl rfl rfl
      intro q hq
      by_cases e : p = q
      · subst e
        rw [State.port_setPort]
        have hin : (s.port p).state = .inTest := by
          unfold State.sourceAllowed at ha
          simp only [hq, Bool.and_eq_true, decide_eq_true_eq] at ha
          exact ha.1.1.1
        by_cases hr : r.state = .inTest
        · rw [hr, hin]
        · rcases src hin hr with h' | h'
          · exact absurd h' hs
          · exact absurd hq h'
      · rw [State.port_setPort_ne s r e]
  · have hq' := h.allowed q (back q hq)
    rw [← hq']
    have hst : ((s.setPort p r).port q).state = (s.port q).state ∧
        ((s.setPort p r).port q).returnState.isNone = (s.port q).returnState.isNone := by
      by_cases e : p = q
      · subst e; rw [State.port_setPort] at hq ⊢; exact (ac (h.ok p) hq).2
      · rw [State.port_setPort_ne s r e]; exact ⟨rfl, rfl⟩
    exact State.accessAllowed_congr hst.1 hst.2 rfl rfl

theorem State.Safe.openFrontEnd {s : State} (h : s.Safe) (p : PortNo) : (s.openFrontEnd p).Safe := by
  unfold State.openFrontEnd
  dsimp only
  have port : ∀ q, ((s.setPort p { s.port p with relayFrontEnd := false }).port q) =
      if p = q then { s.port p with relayFrontEnd := false } else s.port q := by
    intro q
    by_cases e : p = q
    · subst e; simp
    · rw [State.port_setPort_ne s _ e, if_neg e]
  have acc : ∀ q, ((s.setPort p { s.port p with relayFrontEnd := false }).port q).relayAccess = (s.port q).relayAccess := by
    intro q; rw [port]; split
    · subst_vars; rfl
    · rfl
  have st : ∀ q, ((s.setPort p { s.port p with relayFrontEnd := false }).port q).state = (s.port q).state := by
    intro q; rw [port]; split
    · subst_vars; rfl
    · rfl
  have rs : ∀ q, ((s.setPort p { s.port p with relayFrontEnd := false }).port q).returnState = (s.port q).returnState := by
    intro q; rw [port]; split
    · subst_vars; rfl
    · rfl
  have ok : ∀ q, ((s.setPort p { s.port p with relayFrontEnd := false }).port q).ok = true := by
    intro q; rw [port]; split
    · exact PortRecord.ok_openFrontEnd (h.ok p)
    · exact h.ok q
  split
  · rename_i hc
    have hc : s.mfe.connected = some p := hc
    refine ⟨ok, fun q => ?_, fun a b ha hb => h.access a b ((acc a) ▸ ha) ((acc b) ▸ hb), fun hu q => ?_, .inl rfl,
      fun q hq => ?_⟩
    · show ((s.setPort p { s.port p with relayFrontEnd := false }).port q).relayFrontEnd = true ↔ none = some q
      rw [port]
      have := h.frontEnd q
      split
      · simp
      · rename_i e
        rw [this, hc]; simp [e]
    · exact (st q).trans (h.unfitted hu q)
    · have := h.allowed q ((acc q) ▸ hq)
      exact (State.accessAllowed_congr (st q) (by rw [← rs q]) rfl rfl).trans this
  · rename_i hc
    have hc : s.mfe.connected ≠ some p := hc
    refine ⟨ok, fun q => ?_, fun a b ha hb => h.access a b ((acc a) ▸ ha) ((acc b) ▸ hb), fun hu q => ?_, ?_,
      fun q hq => ?_⟩
    · rw [State.setPort_mfe, port]
      split
      · rename_i e; subst e; simp [hc]
      · exact h.frontEnd q
    · exact (st q).trans (h.unfitted hu q)
    · rcases h.source with h' | h'
      · exact .inl h'
      · right
        exact (State.sourceAllowed_congr (fun q _ => st q) rfl (fun _ => rfl) rfl rfl rfl).trans h'
    · have := h.allowed q ((acc q) ▸ hq)
      exact (State.accessAllowed_congr (st q) (by rw [← rs q]) rfl rfl).trans this

theorem State.frontEndFree_iff (s : State) (p : PortNo) : s.frontEndFree p = true ↔
    (s.port p).state = .inTest ∧ (s.port p).relayAccess = false ∧ ∀ q, q = p ∨ (s.port q).relayFrontEnd = false := by
  simp [State.frontEndFree, List.all_eq_true, mem_allPorts, and_assoc]

theorem State.accessBusFree_iff (s : State) (p : PortNo) : s.accessBusFree p = true ↔
    s.accessAllowed p = true ∧ (s.port p).relayFrontEnd = false ∧ ∀ q, q = p ∨ (s.port q).relayAccess = false := by
  simp [State.accessBusFree, List.all_eq_true, mem_allPorts, and_assoc]

theorem PortRecord.ok_connect {r : PortRecord} (h : r.ok = true) (hs : r.state = .inTest) :
    (r.relayAccess = false → PortRecord.ok { r with relayFrontEnd := true } = true) ∧
      (r.relayFrontEnd = false → PortRecord.ok { r with relayAccess := true } = true) := by
  revert h
  unfold PortRecord.ok
  simp only [hs, Bool.and_eq_true]
  rintro ⟨⟨⟨⟨⟨⟨⟨⟨a, b⟩, c⟩, d⟩, e⟩, f⟩, g⟩, i⟩, j⟩
  constructor
  · intro h; simp [h] at *; simp_all
  · intro h; simp [h] at *; simp_all

theorem State.Safe.connectFrontEnd {s : State} (h : s.Safe) (p : PortNo) (free : s.frontEndFree p = true) :
    (s.connectFrontEnd p).Safe := by
  obtain ⟨hin, hac, hfree⟩ := (s.frontEndFree_iff p).mp free
  unfold State.connectFrontEnd
  dsimp only
  have port : ∀ q, ((s.setPort p { s.port p with relayFrontEnd := true }).port q) =
      if p = q then { s.port p with relayFrontEnd := true } else s.port q := by
    intro q
    by_cases e : p = q
    · subst e; simp
    · rw [State.port_setPort_ne s _ e, if_neg e]
  have acc : ∀ q, ((s.setPort p { s.port p with relayFrontEnd := true }).port q).relayAccess = (s.port q).relayAccess := by
    intro q; rw [port]; split
    · subst_vars; rfl
    · rfl
  have st : ∀ q, ((s.setPort p { s.port p with relayFrontEnd := true }).port q).state = (s.port q).state := by
    intro q; rw [port]; split
    · subst_vars; rfl
    · rfl
  have rs : ∀ q, ((s.setPort p { s.port p with relayFrontEnd := true }).port q).returnState = (s.port q).returnState := by
    intro q; rw [port]; split
    · subst_vars; rfl
    · rfl
  refine ⟨fun q => ?_, fun q => ?_, fun a b ha hb => h.access a b ((acc a) ▸ ha) ((acc b) ▸ hb), fun hu q => ?_, ?_,
    fun q hq => ?_⟩
  · show ((s.setPort p { s.port p with relayFrontEnd := true }).port q).ok = true
    rw [port]; split
    · exact (PortRecord.ok_connect (h.ok p) hin).1 hac
    · exact h.ok q
  · show ((s.setPort p { s.port p with relayFrontEnd := true }).port q).relayFrontEnd = true ↔ some p = some q
    rw [port]
    split
    · rename_i e; simp [e]
    · rename_i e
      have := (hfree q).resolve_left (Ne.symm e)
      simp [this, e]
  · exact (st q).trans (h.unfitted hu q)
  · rcases h.source with h' | h'
    · exact .inl h'
    · right
      have hc : s.mfe.connected = some p := by
        cases hq : s.mfe.connected with
        | none => simp [State.sourceAllowed, hq] at h'
        | some q =>
          have := (h.frontEnd q).mpr hq
          rcases hfree q with e | e
          · rw [e]
          · rw [e] at this; cases this
      have hm : ((s.setPort p { s.port p with relayFrontEnd := true }).setMfe
          { s.mfe with connected := some p }).mfe.connected = s.mfe.connected := hc.symm
      refine (State.sourceAllowed_congr (s := s) ?_ hm ?_ ?_ ?_ ?_).trans h'
      · exact fun q _ => st q
      · exact fun _ => rfl
      all_goals rfl
  · have := h.allowed q ((acc q) ▸ hq)
    exact (State.accessAllowed_congr (st q) (by rw [← rs q]) rfl rfl).trans this

theorem State.Safe.connectAccess {s : State} (h : s.Safe) (p : PortNo) (free : s.accessBusFree p = true) :
    (s.connectAccess p).Safe := by
  obtain ⟨hal, hfe, hfree⟩ := (s.accessBusFree_iff p).mp free
  have hin : (s.port p).state = .inTest := by
    unfold State.accessAllowed at hal
    simp only [Bool.and_eq_true, decide_eq_true_eq] at hal
    exact hal.1.1.1
  unfold State.connectAccess
  have port : ∀ q, ((s.setPort p { s.port p with relayAccess := true }).port q) =
      if p = q then { s.port p with relayAccess := true } else s.port q := by
    intro q
    by_cases e : p = q
    · subst e; simp
    · rw [State.port_setPort_ne s _ e, if_neg e]
  have st : ∀ q, ((s.setPort p { s.port p with relayAccess := true }).port q).state = (s.port q).state := by
    intro q; rw [port]; split
    · subst_vars; rfl
    · rfl
  have rs : ∀ q, ((s.setPort p { s.port p with relayAccess := true }).port q).returnState = (s.port q).returnState := by
    intro q; rw [port]; split
    · subst_vars; rfl
    · rfl
  have only : ∀ q, ((s.setPort p { s.port p with relayAccess := true }).port q).relayAccess = true → q = p := by
    intro q hq
    rw [port] at hq
    split at hq
    · exact Eq.symm ‹_›
    · exact (hfree q).resolve_right (by simp [hq])
  refine ⟨fun q => ?_, fun q => ?_, fun a b ha hb => (only a ha).trans (only b hb).symm, fun hu q => (st q).trans (h.unfitted hu q), ?_,
    fun q hq => ?_⟩
  · rw [port]; split
    · exact (PortRecord.ok_connect (h.ok p) hin).2 hfe
    · exact h.ok q
  · rw [State.setPort_mfe, port, ← h.frontEnd q]
    split
    · rename_i e; subst e; rfl
    · rfl
  · rcases h.source with h' | h'
    · exact .inl h'
    · right
      exact (State.sourceAllowed_congr (fun q _ => st q) rfl (fun _ => rfl) rfl rfl rfl).trans h'
  · have e := only q hq
    subst e
    exact (State.accessAllowed_congr (st q) (by rw [← rs q]) rfl rfl).trans hal

/-- R109 to R112, R155: every move keeps a safe state safe. -/
theorem Moves.safe {s t : State} (h : Moves s t) (hs : s.Safe) : t.Safe := by
  induction h with
  | refl => exact hs
  | trans _ _ ih1 ih2 => exact ih2 (ih1 hs)
  | offer s m r => exact hs.congr rfl rfl .inl (fun _ => rfl) rfl (fun _ => id) rfl
  | dropped s => exact hs.congr rfl rfl .inl (fun _ => rfl) rfl (fun _ => id) rfl
  | claim s r c h => exact hs.congr rfl rfl .inl (fun _ => rfl) rfl (State.held_setClaim h) rfl
  | wanted s w => exact hs.congr rfl rfl .inl (fun _ => rfl) rfl (fun _ => id) rfl
  | enforced h => exact State.enforce_safe hs h.wires
  | enforceSource s => exact hs.enforceSource
  | port s p r ok fe ac src unf => exact hs.setPort p r ok fe ac src unf
  | openFrontEnd s p => exact hs.openFrontEnd p
  | connectFrontEnd s p h => exact hs.connectFrontEnd p h
  | connectAccess s p h => exact hs.connectAccess p h
  | mfe s m conn src => exact hs.congr rfl conn src (fun _ => rfl) rfl (fun _ => id) rfl
  | line s p l h => exact hs.congr rfl rfl .inl (State.fvdLevel_setLine h) rfl (fun _ => id) rfl
  | leave s b => exact hs.congr rfl rfl .inl (fun _ => rfl) rfl (fun _ => id) rfl
  | tsq s t q st lg => exact hs.congr rfl rfl .inl (fun _ => rfl) rfl (fun _ => id) rfl
  | restore s p n => exact hs.congr rfl rfl .inl (fun _ => rfl) rfl (fun _ => id) rfl
  | lane h => rw [h.same]; exact hs.congr rfl rfl .inl (fun _ => rfl) rfl (fun _ => id) rfl

end Sys2Proof.Machine
end

