-- ==== Sys2Proof/Laws/MovesOf.lean ====
section
/-!
SUPPORT. One lemma per operation: which elementary moves it is made of. With `Moves.fixed`, `Moves.pool`,
`Moves.limits` and `Moves.safe` these say once what each operation keeps.
-/
namespace Sys2Proof.Machine

/-! ### Offers -/

theorem State.offer_soft (s : State) (m : Message) : Soft s (s.offer m) := by
  unfold State.offer; split
  · exact .dropped s
  · exact .offer s m false

theorem State.offerPast_soft (s : State) (m : Message) (r : Bool) : Soft s (s.offerPast m r) := .offer s m r

theorem State.offer_moves (s : State) (m : Message) : Moves s (s.offer m) := by
  unfold State.offer; split
  · exact .dropped s
  · exact .offer s m false

theorem State.offer_claimOf (s : State) (m : Message) : (s.offer m).claimOf = s.claimOf := by
  unfold State.offer; split <;> rfl

/-! ### Claims -/

theorem ClaimEntry.ok_of_not_held {c d : ClaimEntry} {a : Nat} (h : c.ok a = true) (hc : c.own ≠ .held)
    (hd : d.own ≠ .held) (hh : d.holder = c.holder ∨ d.holder ≠ some a) : d.ok a = true := by
  rw [ClaimEntry.ok_iff] at h ⊢
  refine ⟨⟨fun e => absurd e hd, fun e => ?_⟩, fun e => absurd e hd⟩
  rcases hh with hh | hh
  · rw [hh] at e; exact absurd (h.1.mpr e) hc
  · exact absurd e hh

theorem ClaimEntry.ok_cleared (c : ClaimEntry) {a : Nat} (hc : c.own ≠ .held) : c.cleared.ok a = true := by
  rw [ClaimEntry.ok_iff]
  exact ⟨⟨fun e => absurd e hc, fun e => by cases e⟩, fun e => absurd e hc⟩

theorem State.beginClaim_moves (s : State) (r : ResourceNo) (h : (s.claimOf r).own ≠ .held) :
    Moves s (s.beginClaim r) := by
  unfold State.beginClaim; dsimp only; split
  · exact .claim _ _ _ (fun e => absurd e h) fun k => ClaimEntry.ok_of_not_held k h nofun (.inl rfl)
  · exact .after (State.offer_moves _ _)
      (.claim _ _ _ (fun e => absurd e h) fun k => ClaimEntry.ok_of_not_held k h nofun (.inl rfl))

theorem State.viewFreed_moves (s : State) (r : ResourceNo) : Moves s (s.viewFreed r) := by
  unfold State.viewFreed
  refine .ite (fun h => s.beginClaim_moves r ?_) fun _ => .refl s
  rw [h.1]; decide

theorem State.giveUp_soft (s : State) (r : ResourceNo) : Soft s (s.giveUp r) := by
  unfold State.giveUp; dsimp only; split
  · exact .claim _ _ _ id
  · rename_i h
    exact .claim _ _ _ fun k => ClaimEntry.ok_of_not_held k (by rw [h]; decide) nofun (.inl rfl)
  · rename_i h
    exact .after (State.offer_soft _ _)
      (.claim _ _ _ fun k => ClaimEntry.ok_of_not_held k (by rw [h]; decide) nofun (.inl rfl))
  · exact .after (State.offer_soft _ _) (.claim _ _ _ fun _ => ClaimEntry.ok_cleared _ nofun)

theorem State.giveUp_own (s : State) (r q : ResourceNo) :
    ((s.giveUp r).claimOf q).own = if r = q then .none else (s.claimOf q).own := by
  unfold State.giveUp; dsimp only
  by_cases e : r = q
  · subst e
    split <;> simp_all [State.offer_claimOf, ClaimEntry.cleared]
  · split <;> simp [State.offer_claimOf, State.claimOf_setClaim_ne _ _ e, e]

theorem State.giveUps_own (l : List ResourceNo) (s : State) (q : ResourceNo)
    (h : (s.claimOf q).own = .none) : ((l.foldl State.giveUp s).claimOf q).own = .none := by
  induction l generalizing s with
  | nil => exact h
  | cons r l ih =>
    refine ih _ ?_
    rw [State.giveUp_own]; split
    · rfl
    · exact h

theorem State.giveUps_soft (l : List ResourceNo) (s : State) : Soft s (l.foldl State.giveUp s) :=
  .foldl State.giveUp_soft l s

theorem State.releaseAll_moves (s : State) : Moves s s.releaseAll := by
  unfold State.releaseAll
  exact .enforced (.trans (State.giveUps_soft _ s) (.wanted ..))

theorem State.enforce_claimOf (s : State) : s.enforce.claimOf = s.claimOf := by
  obtain ⟨v, m, e⟩ := s.enforce_same; rw [e]; rfl

theorem State.releaseAll_own (s : State) (q : ResourceNo) (h : (s.claimOf q).own = .none) :
    (s.releaseAll.claimOf q).own = .none := by
  unfold State.releaseAll
  rw [State.enforce_claimOf]
  have := State.giveUps_own allResources s q h
  revert this
  generalize allResources.foldl State.giveUp s = u
  exact id

theorem State.releaseAllBut_moves (s : State) (b : ResourceNo) : Moves s (s.releaseAllBut b) := by
  unfold State.releaseAllBut
  dsimp only
  refine .ite (fun _ => .enforced ?_) fun _ => s.releaseAll_moves
  exact .after (.wanted ..) (.after (.claim _ _ _ id) (State.giveUps_soft _ s))

theorem State.beginAccess_moves (s : State) : Moves s s.beginAccess := by
  unfold State.beginAccess
  refine .ite (fun h => s.beginClaim_moves _ ?_) fun _ => .refl s
  rw [h.2.2]; decide

theorem State.claimBinder_moves (s : State) (b : ResourceNo) : Moves s (s.claimBinder b) := by
  unfold State.claimBinder
  refine .ite (fun h => ?_) fun _ => .refl s
  dsimp only
  split
  · exact .trans s.releaseAll_moves (State.beginClaim_moves _ _ (by rw [s.releaseAll_own b h]; decide))
  · exact s.beginClaim_moves b (by rw [h]; decide)

theorem State.claimAccess_moves (s : State) : Moves s s.claimAccess :=
  .trans (.wanted s true) (State.beginAccess_moves _)

theorem State.markWaiting_moves (s : State) (b : ResourceNo) : Moves s (s.markWaiting b) := .claim _ _ _ id id

theorem State.markInUse_moves (s : State) (b : ResourceNo) : Moves s (s.markInUse b) := .claim _ _ _ id id

theorem State.enterHeld_moves (s : State) (r : ResourceNo) : Moves s (s.enterHeld r) := by
  unfold State.enterHeld; dsimp only
  refine .after (.ite (fun _ => .refl _) fun _ => State.beginAccess_moves _) ?_
  refine .after (.ite (fun _ => State.offer_moves _ _) fun _ => .refl _) ?_
  exact .claim _ _ _ (fun _ => rfl) fun _ => (ClaimEntry.ok_iff _ _).mpr ⟨iff_of_true rfl rfl, fun _ => rfl⟩

theorem State.offerHold_moves (s : State) (r : ResourceNo) : Moves s (s.offerHold r) := by
  unfold State.offerHold
  exact .after (State.offer_moves _ _) (.claim _ _ _ id id)

theorem State.dropAccess_soft (s : State) : Soft s s.dropAccess := s.giveUp_soft accessBus

theorem State.loseClaim_moves (s : State) (r : ResourceNo) (x : Nat) (t : Half) (hx : x ≠ s.csu.address) :
    Moves s (s.loseClaim r x t) := by
  have a : Soft s (s.setClaim r { (s.claimOf r).heardFrom x t s.uls.f with own := .waiting, markedWaiting := false }) :=
    .claim _ _ _ fun _ => (ClaimEntry.ok_iff _ _).mpr
      ⟨⟨fun e => (nomatch e), fun e => absurd (Option.some.inj e) hx⟩, fun e => (nomatch e)⟩
  unfold State.loseClaim; dsimp only
  refine .enforced ?_
  split
  · exact .after (State.offer_soft _ _) a
  · exact .after (State.dropAccess_soft _) (.after (State.offer_soft _ _) a)

theorem State.lapseClaim_moves (s : State) (r : ResourceNo) : Moves s (s.lapseClaim r) := by
  unfold State.lapseClaim
  exact .enforced (.after (State.dropAccess_soft _) (.after (State.offer_soft _ _) (.claim _ _ _ fun _ =>
    (ClaimEntry.ok_iff _ _).mpr ⟨⟨fun e => (nomatch e), fun e => (nomatch e)⟩, fun e => (nomatch e)⟩)))

theorem State.endHoldOff_moves (s : State) (r : ResourceNo) : Moves s (s.endHoldOff r) := by
  unfold State.endHoldOff
  exact .after (State.viewFreed_moves _ _) (.claim _ _ _ id id)

theorem State.expireView_moves (s : State) (r : ResourceNo) (h : (s.claimOf r).own ≠ .held) : Moves s (s.expireView r) := by
  unfold State.expireView
  exact .after (State.viewFreed_moves _ _) (.claim _ _ _ id fun _ => ClaimEntry.ok_cleared _ h)

theorem State.observe_moves (s : State) (r : ResourceNo) (x : Nat) (t : Half) (h : (s.claimOf r).own ≠ .held)
    (hx : x ≠ s.csu.address) : Moves s (s.observe r x t) := by
  unfold State.observe; dsimp only
  exact .ite (fun _ => .claim _ _ _ id fun k =>
    ClaimEntry.ok_of_not_held k h h (.inr fun e => hx (Option.some.inj e))) fun _ => .refl s

theorem State.contest_moves (s : State) (r : ResourceNo) (x : Nat) (t : Half) (h : (s.claimOf r).own ≠ .held)
    (hx : x ≠ s.csu.address) : Moves s (s.contest r x t) := by
  unfold State.contest; dsimp only
  exact .ite (fun _ => .claim _ _ _ (fun e => absurd e h) fun k =>
    ClaimEntry.ok_of_not_held k h nofun (.inr fun e => hx (Option.some.inj e))) fun _ => .claim _ _ _ id id

theorem State.hearRelease_moves (s : State) (r : ResourceNo) (x : Nat) (hx : x ≠ s.csu.address) :
    Moves s (s.hearRelease r x) := by
  unfold State.hearRelease
  refine .ite (fun h => .after (State.viewFreed_moves _ _) (.claim _ _ _ id fun k => ?_)) fun _ => .refl s
  refine ClaimEntry.ok_cleared _ fun e => hx ?_
  have := ((ClaimEntry.ok_iff _ _).mp k).1.mp e
  rw [h] at this
  exact Option.some.inj this

theorem State.releaseForReset_moves (s : State) (b : Bool) : Moves s (s.releaseForReset b) := by
  unfold State.releaseForReset
  refine .enforced (.after (.wanted ..) (.foldl (fun s r => ?_) _ s))
  dsimp only
  split
  · exact .after (State.offerPast_soft ..) (.claim _ _ _ fun _ => ClaimEntry.ok_cleared _ nofun)
  · rename_i h
    exact .after (State.offerPast_soft ..)
      (.claim _ _ _ fun k => ClaimEntry.ok_of_not_held k (by rw [h]; decide) nofun (.inl rfl))
  · rename_i h _
    exact .claim _ _ _ fun k => ClaimEntry.ok_of_not_held k h nofun (.inl rfl)

/-! ### Cells and the test queue -/

theorem LeuPort.setCell_levels (l : LeuPort) (c : Condition) (x : Cell) : (l.setCell c x).levels = l.levels := by
  cases c <;> rfl

theorem State.setCell_moves (s : State) (p : PortNo) (c : Condition) (x : Cell) : Moves s (s.setCell p c x) :=
  .line _ _ _ (LeuPort.setCell_levels _ c x)

theorem State.noticeLeave_moves (s : State) : Moves s s.noticeLeave := .leave s true

theorem State.noticeDisplaced_moves (s : State) (p : PortNo) (k : TestKind) : Moves s (s.noticeDisplaced p k) := by
  unfold State.noticeDisplaced; split
  · exact .refl s
  · dsimp only; exact .ite (fun _ => s.setCell_moves ..) fun _ => .refl s

theorem insertEntry_length (e : QueueEntry) (q : List QueueEntry) : (insertEntry e q).length = q.length + 1 := by
  induction q with
  | nil => rfl
  | cons x q ih => unfold insertEntry; split <;> simp [ih]

theorem dropMade_lt {q : List QueueEntry} {e : QueueEntry} (h : e ∈ q) : (dropMade q e.made).length < q.length :=
  List.length_filter_lt_length_iff_exists.mpr ⟨e, h, by simp⟩

theorem dropMade_le (q : List QueueEntry) (n : Nat) : (dropMade q n).length ≤ q.length := List.length_filter_le ..

theorem State.addEntry_moves (s : State) (e : QueueEntry) (h : s.tsq.queue.length < queueCapacity) :
    Moves s (s.addEntry e) := by
  refine .tsq _ _ (fun _ => ?_) id id
  show (insertEntry _ _).length ≤ _
  rw [insertEntry_length]; exact h

/-- A displaced notice and the joining of an entry touch different blocks. -/
theorem State.addEntry_noticeDisplaced (s : State) (p : PortNo) (k : TestKind) (e : QueueEntry) :
    (s.noticeDisplaced p k).addEntry e = (s.addEntry e).noticeDisplaced p k := by
  have g : ∀ c, (s.addEntry e).cell p c = s.cell p c := fun _ => rfl
  unfold State.noticeDisplaced
  cases k.condition? with
  | none => rfl
  | some c => dsimp only; rw [g]; split <;> rfl

theorem State.displaceable_mem {s : State} {n : Nat} {e : QueueEntry} (h : s.displaceable n = some e) :
    e ∈ s.tsq.queue := by
  have := List.mem_of_find?_eq_some h
  simpa using this

theorem State.autoRequest_moves (s : State) (p : PortNo) (c : Condition) (n : Nat) :
    Moves s (s.autoRequest p c n).1 := by
  unfold State.autoRequest
  split
  · exact .refl s
  · split
    · exact .refl s
    · split
      · exact .refl s
      · split
        · rename_i h; exact s.addEntry_moves _ h
        · split
          · rename_i e he
            dsimp only
            rw [State.addEntry_noticeDisplaced]
            refine .trans (.trans ?_ (State.noticeDisplaced_moves _ _ _)) (State.noticeLeave_moves _)
            refine .tsq s _ (fun hq => ?_) id id
            show (insertEntry _ _).length ≤ _
            rw [insertEntry_length]
            have := dropMade_lt (State.displaceable_mem he)
            show (dropMade s.tsq.queue e.made).length + 1 ≤ _
            omega
          · exact .refl s

theorem State.askCell_moves (s : State) (p : PortNo) (c : Condition) : Moves s (s.askCell p c) :=
  .trans (s.autoRequest_moves p c _) (State.setCell_moves _ p c _)

theorem State.askIf_moves (s : State) (r : RequestState) (p : PortNo) (c : Condition) : Moves s (s.askIf r p c) := by
  unfold State.askIf
  exact .ite (fun _ => s.askCell_moves p c) fun _ => .refl s

theorem settleLeaves_moves (n : Nat) (s : State) : Moves s (settleLeaves n s) := by
  induction n generalizing s with
  | zero => exact .leave s false
  | succ n ih =>
    unfold settleLeaves
    split
    · exact .trans (.trans (.leave s false) (Moves.foldl (fun s pc => s.askIf_moves _ _ _) _ _)) (ih _)
    · exact .refl s

theorem State.settleNotices_moves (s : State) : Moves s s.settleNotices := settleLeaves_moves 256 s

theorem State.levelAsk_moves (s : State) (p : PortNo) (c : Condition) : Moves s (s.levelAsk p c) := by
  unfold State.levelAsk
  exact .ite (fun _ => s.autoRequest_moves p c _) fun _ => .refl s

theorem State.levelAskAll_moves (s : State) : Moves s s.levelAskAll := by
  unfold State.levelAskAll
  have h : ∀ (u : State) (pc : PortNo × Condition), Moves u (u.levelAsk pc.1 pc.2) := fun u pc =>
    u.levelAsk_moves pc.1 pc.2
  exact .foldl h _ s

theorem State.latchEdge_moves (s : State) (p : PortNo) (c : Condition) : Moves s (s.latchEdge p c) := by
  unfold State.latchEdge
  dsimp only
  split
  · refine .trans (s.setCell_moves p c _) (.ite (fun _ => State.askCell_moves _ p c) fun _ => .refl _)
  · refine .trans (s.setCell_moves p c _) (.ite (fun _ => State.askCell_moves _ p c) fun _ => .refl _)

theorem State.cellEdge_moves (s : State) (p : PortNo) (c : Condition) (l : Bool) : Moves s (s.cellEdge p c l) := by
  unfold State.cellEdge
  dsimp only
  exact .ite (fun _ => s.latchEdge_moves p c) fun _ => .ite (fun _ => s.levelAsk_moves p c) fun _ => .refl s

theorem State.noticeStart_moves (s : State) (p : PortNo) (k : TestKind) : Moves s (s.noticeStart p k) := by
  unfold State.noticeStart; split
  · exact .refl s
  · dsimp only; exact .ite (fun _ => s.setCell_moves ..) fun _ => .refl s

theorem State.noticeRemoved_moves (s : State) (p : PortNo) (k : TestKind) : Moves s (s.noticeRemoved p k) := by
  unfold State.noticeRemoved; split
  · exact .refl s
  · dsimp only; exact .ite (fun _ => s.setCell_moves ..) fun _ => .refl s

theorem State.noticeEnd_moves (s : State) (p : PortNo) (k : TestKind) (o : Origin) : Moves s (s.noticeEnd p k o) := by
  unfold State.noticeEnd; split
  · exact .refl s
  · dsimp only
    exact .trans (.ite (fun _ => s.setCell_moves ..) fun _ => .refl s) (State.askIf_moves _ _ _ _)

theorem State.countLine_moves (s : State) (p : PortNo) : Moves s (s.countLine p) := .line _ _ _ rfl

theorem State.clearExit_moves (s : State) (p : PortNo) : Moves s (s.clearExit p) := .line _ _ _ rfl

end Sys2Proof.Machine
end

