-- ==== Sys2Proof/Laws/Pool.lean ====
section
/-!
SUPPORT. The buffers (R95, R96): each operation of the queues and lists that hold them keeps the pool in order. `Lane s t`
says that t comes from s by such an operation, and touches nothing else.
-/
namespace Sys2Proof.Machine

/-! ### Counting -/

/-- The pool is in order but for n buffers that no list holds. -/
structure State.Pool (s : State) (n : Nat) : Prop where
  sum : s.pqm.free + s.buffersHeld + n = 512
  ok : ∀ p, ∀ r ∈ (s.pq p).queue, r.ok = true

theorem State.poolOk_iff (s : State) : s.poolOk = true ↔ s.Pool 0 := by
  unfold State.poolOk
  simp only [Bool.and_eq_true, decide_eq_true_eq, List.all_eq_true]
  exact ⟨fun ⟨a, b⟩ => ⟨a, fun p => b p (mem_allPorts p)⟩, fun ⟨a, b⟩ => ⟨a, fun p _ => b p⟩⟩

/-- The queued counts of all ports together. -/
def State.queuedSum (s : State) : Nat := (allPorts.map s.queued).sum

theorem sum_same (f g : PortNo → Nat) (p : PortNo) (h : ∀ q, p ≠ q → g q = f q) (l : List PortNo) (hl : p ∉ l) :
    (l.map g).sum = (l.map f).sum := by
  induction l with
  | nil => rfl
  | cons x l ih =>
    simp only [List.mem_cons, not_or] at hl
    simp only [List.map_cons, List.sum_cons, ih hl.2, h x hl.1]

theorem sum_change (f g : PortNo → Nat) (p : PortNo) (h : ∀ q, p ≠ q → g q = f q) (l : List PortNo) (hl : p ∈ l)
    (nd : l.Nodup) : (l.map g).sum + f p = (l.map f).sum + g p := by
  induction l with
  | nil => cases hl
  | cons x l ih =>
    simp only [List.map_cons, List.sum_cons]
    rw [List.nodup_cons] at nd
    by_cases e : p = x
    · subst e
      rw [sum_same f g p h l nd.1]
      omega
    · have := ih ((List.mem_cons.mp hl).resolve_left e) nd.2
      rw [h x e]
      omega

theorem sum_allPorts (f g : PortNo → Nat) (p : PortNo) (h : ∀ q, p ≠ q → g q = f q) :
    (allPorts.map g).sum + f p = (allPorts.map f).sum + g p :=
  sum_change f g p h allPorts (mem_allPorts p) (by decide)

theorem State.queuedSum_setPq (s : State) (p : PortNo) (q : PqmPort) :
    (s.setPq p q).queuedSum + s.queued p = s.queuedSum + queuedCount q.queue := by
  have := sum_allPorts s.queued (s.setPq p q).queued p fun x hx => by
    unfold State.queued; rw [State.pq_setPq_ne s q hx]
  unfold State.queuedSum
  rw [this]
  unfold State.queued
  rw [State.pq_setPq]

theorem State.buffersHeld_eq (s : State) :
    s.buffersHeld = s.queuedSum + s.uls.inFlight.length + s.uls.retransmit.length := rfl

/-- Where a queue changes from one in order to another in order. -/
theorem State.Pool.setPq {s : State} {n k : Nat} (h : s.Pool n) (p : PortNo) (q : PqmPort)
    (sum : queuedCount q.queue + k = s.queued p + n) (ok : ∀ r ∈ q.queue, r.ok = true) : (s.setPq p q).Pool k := by
  have e := s.queuedSum_setPq p q
  have g := h.sum
  refine ⟨?_, fun x r hr => ?_⟩
  · rw [State.buffersHeld_eq] at *
    simp only [State.setPq_pqm, State.setPq_uls]
    omega
  · by_cases hx : p = x
    · subst hx; rw [State.pq_setPq] at hr; exact ok r hr
    · rw [State.pq_setPq_ne s q hx] at hr; exact h.ok x r hr

theorem State.Pool.count {s : State} {n : Nat} (h : s.Pool n) (p : PortNo) (f : PortCounters → PortCounters) :
    (s.count p f).Pool n :=
  h.setPq p _ rfl (h.ok p)

theorem State.Pool.free {s : State} {n k : Nat} (h : s.Pool (n + k)) : (s.freeBuffers k).Pool n := by
  refine ⟨?_, h.ok⟩
  have := h.sum
  show s.pqm.free + k + s.buffersHeld + n = 512
  omega

theorem State.Pool.take {s : State} {n k : Nat} (h : s.Pool n) (hk : k ≤ s.pqm.free) : (s.takeBuffers k).Pool (n + k) := by
  refine ⟨?_, h.ok⟩
  have := h.sum
  show s.pqm.free - k + s.buffersHeld + (n + k) = 512
  omega

theorem State.Pool.setUls {s : State} {n k : Nat} (h : s.Pool n) (u : Uls)
    (sum : u.inFlight.length + u.retransmit.length + k = s.uls.inFlight.length + s.uls.retransmit.length + n) :
    (s.setUls u).Pool k := by
  refine ⟨?_, h.ok⟩
  have := h.sum
  rw [State.buffersHeld_eq] at *
  show s.pqm.free + (s.queuedSum + u.inFlight.length + u.retransmit.length) + k = 512
  omega

/-! ### Lane operations -/

/-- A change of the lane and the queues that touches nothing else. -/
def SameLane (s t : State) : Prop :=
  t = { s with
    pqm := t.pqm
    uls := { s.uls with grantMap := t.uls.grantMap, inFlight := t.uls.inFlight, retransmit := t.uls.retransmit,
                        admitted := t.uls.admitted } }

theorem SameLane.trans {s t u : State} (a : SameLane s t) (b : SameLane t u) : SameLane s u := by
  unfold SameLane at *
  rw [b, a]

theorem SameLane.foldl {α : Type} {f : State → α → State} (h : ∀ s a, SameLane s (f s a)) (l : List α) (s : State) :
    SameLane s (l.foldl f s) := by
  induction l generalizing s with
  | nil => rfl
  | cons a l ih => exact (h s a).trans (ih _)

theorem Lane.of {s t : State} (a : SameLane s t) (b : s.Pool 0 → t.Pool 0) : Lane s t :=
  ⟨a, fun h => (State.poolOk_iff t).mpr (b ((State.poolOk_iff s).mp h))⟩

theorem State.clearMapOf_lane (s : State) (p : PortNo) : Lane s (s.clearMapOf p) :=
  .of rfl fun h => h.setUls _ rfl

theorem State.clearDrain_lane (s : State) (p : PortNo) : Lane s (s.clearDrain p) :=
  .of rfl fun h => h.setPq p _ rfl (h.ok p)

theorem State.count_lane (s : State) (p : PortNo) (f : PortCounters → PortCounters) : Lane s (s.count p f) :=
  .of rfl fun h => h.count p f

theorem State.setDrain_lane (s : State) (p : PortNo) (n : Nat) :
    Lane s (s.setPq p { s.pq p with drainCount := n }) :=
  .of rfl fun h => h.setPq p _ rfl (h.ok p)

theorem filter_port (l : List RetransmitEntry) (p : PortNo) :
    (l.filter fun e => decide (e.port ≠ p)).length + (l.filter fun e => decide (e.port = p)).length = l.length := by
  induction l with
  | nil => rfl
  | cons e l ih =>
    by_cases h : e.port = p
    · simp only [List.filter_cons, h, decide_true, ne_eq, not_true_eq_false, decide_false, if_true, List.length_cons] at ih ⊢
      simp only [Bool.false_eq_true, if_false]
      omega
    · simp only [List.filter_cons, h, decide_true, ne_eq, not_false_eq_true, decide_false, if_true, List.length_cons] at ih ⊢
      simp only [Bool.false_eq_true, if_false]
      omega

theorem State.discardRetransmits_pool {s : State} {n : Nat} (h : s.Pool n) (p : PortNo) :
    (s.discardRetransmits p).Pool n := by
  unfold State.discardRetransmits
  refine State.Pool.free (h.setUls _ ?_)
  unfold State.retransmits
  have := filter_port s.uls.retransmit p
  dsimp only
  omega

theorem State.discardRetransmits_lane (s : State) (p : PortNo) : Lane s (s.discardRetransmits p) :=
  .of rfl fun h => State.discardRetransmits_pool h p

theorem State.discardForConflict_lane (s : State) (p : PortNo) : Lane s (s.discardForConflict p) :=
  .of rfl fun h => by
    unfold State.discardForConflict
    exact (State.discardRetransmits_pool h p).count p _

/-- R104: the discarded queue's buffers are free. -/
theorem State.discardQueues_lane (s : State) (p : PortNo) : Lane s (s.discardQueues p) := by
  refine .of rfl fun h => ?_
  unfold State.discardQueues
  dsimp only
  have a : ((s.setPq p { s.pq p with queue := [] }).freeBuffers (s.queued p)).Pool 0 := by
    refine State.Pool.free (h.setPq p _ ?_ (by simp))
    simp [queuedCount]
  exact State.Pool.setUls (State.Pool.count (State.discardRetransmits_pool a p) p _) _ rfl

theorem cutSegments_length (n : Nat) (bs : List Byte) : (cutSegments n bs).length = n := by
  induction n generalizing bs with
  | zero => rfl
  | succ n ih => simp [cutSegments, ih]

/-- R97: an arriving packet's segments take their buffers from the free count. -/
theorem State.arrive_lane (s : State) (p : PortNo) (data : List Byte) : Lane s (s.arrive p data) := by
  unfold State.arrive
  dsimp only
  split
  · exact .refl s
  split
  · exact s.count_lane p _
  split
  · exact s.count_lane p _
  split
  · exact s.count_lane p _
  rename_i h0 _ h2 h3
  refine .of rfl fun h => ?_
  unfold State.admitPacket
  dsimp only
  have a := h.take (k := segmentsOf data.length) (by omega)
  refine State.Pool.setUls (State.Pool.setPq a p _ ?_ ?_ (k := 0)) _ rfl
  · show queuedCount ((s.pq p).queue ++ [_]) + 0 = queuedCount (s.pq p).queue + _
    simp [queuedCount]
  · intro r hr
    rcases List.mem_append.mp hr with hr | hr
    · exact h.ok p r hr
    · rw [List.mem_singleton.mp hr]
      refine decide_eq_true ⟨?_, Nat.le_refl _, ?_, cutSegments_length _ _⟩
      · show 1 ≤ (data.length + 63) / 64
        omega
      · show (data.length + 63) / 64 ≤ 24
        omega

theorem insertInFlight_length (e : InFlightEntry) (l : List InFlightEntry) :
    (insertInFlight e l).length = l.length + 1 := by
  induction l with
  | nil => rfl
  | cons x l ih => unfold insertInFlight; split <;> simp [ih]

theorem takeRetransmit_length {l l' : List RetransmitEntry} {p : PortNo} {e : RetransmitEntry}
    (h : takeRetransmit l p = some (e, l')) : l'.length + 1 = l.length := by
  induction l generalizing l' e with
  | nil => cases h
  | cons x l ih =>
    unfold takeRetransmit at h
    split at h
    · cases h; rfl
    · split at h
      · rename_i y r hy; cases h; simp [ih hy]
      · cases h

theorem takeQueued_count {q rest : List PacketRecord} {x : Half × Nat × Bool × List Byte}
    (h : takeQueued q = some (x, rest)) (ok : ∀ r ∈ q, r.ok = true) :
    queuedCount rest + 1 = queuedCount q ∧ ∀ r ∈ rest, r.ok = true := by
  unfold takeQueued at h
  split at h
  · cases h
  · rename_i r l
    have hr := ok r (by simp)
    unfold PacketRecord.ok at hr
    simp only [decide_eq_true_eq] at hr
    dsimp only at h
    split at h
    · cases h
      refine ⟨?_, fun y hy => ok y (by simp [hy])⟩
      simp only [queuedCount, List.map_cons, List.sum_cons]
      omega
    · cases h
      refine ⟨?_, fun y hy => ?_⟩
      · simp only [queuedCount, List.map_cons, List.sum_cons]
        omega
      · rcases List.mem_cons.mp hy with rfl | hy
        · unfold PacketRecord.ok
          simp only [List.length_tail, decide_eq_true_eq]
          omega
        · exact ok y (by simp [hy])

/-- R86, R87: a filled slot moves a buffer from a queue or the retransmit list to the in-flight list. -/
theorem State.fillSlot_lane (s : State) (p : PortNo) (frame : Half) (slot : Nat) : Lane s (s.fillSlot p frame slot) := by
  unfold State.fillSlot
  split
  · rename_i e rest he
    refine .of rfl fun h => h.setUls _ ?_
    have := takeRetransmit_length he
    simp only [insertInFlight_length]
    omega
  · split
    · rename_i number index last payload rest he
      refine .of rfl fun h => ?_
      obtain ⟨hc, hok⟩ := takeQueued_count he (h.ok p)
      have a : (s.setPq p { s.pq p with queue := rest }).Pool 1 := by
        refine h.setPq p _ ?_ hok
        show queuedCount rest + 1 = queuedCount (s.pq p).queue + 0
        omega
      refine State.Pool.setUls a _ ?_
      simp only [insertInFlight_length, State.setPq_uls]
      omega
    · exact .refl s

/-! ### The status of a frame -/

theorem State.finishSegment_pool {s : State} {n : Nat} (h : s.Pool (n + 1)) (e : InFlightEntry) :
    (s.finishSegment e).Pool n := h.free

theorem State.failSegment_pool {s : State} {n : Nat} (h : s.Pool (n + 1)) (e : InFlightEntry) :
    (s.failSegment e).Pool n := by
  unfold State.failSegment
  split
  · exact (State.Pool.free h).count _ _
  split
  · exact (State.Pool.free h).count _ _
  · refine h.setUls _ ?_
    simp
    omega

theorem State.releaseSegment_pool {s : State} {n : Nat} (h : s.Pool (n + 1)) (e : InFlightEntry) :
    (s.releaseSegment e).Pool n := (State.Pool.free h).count _ _

theorem State.settleSegment_pool (status : Vector Byte 32) {s : State} {n : Nat} (h : s.Pool (n + 1)) (e : InFlightEntry) :
    (s.settleSegment status e).Pool n := by
  unfold State.settleSegment
  split
  · exact State.finishSegment_pool h e
  · exact State.failSegment_pool h e

theorem State.Pool.foldl {f : State → InFlightEntry → State}
    (hf : ∀ {s : State} {n : Nat}, s.Pool (n + 1) → ∀ e, (f s e).Pool n) (l : List InFlightEntry) {s : State} {n : Nat}
    (h : s.Pool (n + l.length)) : (l.foldl f s).Pool n := by
  induction l generalizing s with
  | nil => exact h
  | cons e l ih => exact ih (hf (by rw [List.length_cons, ← Nat.add_assoc] at h; exact h) e)

theorem State.settleSegment_same (status : Vector Byte 32) (s : State) (e : InFlightEntry) :
    SameLane s (s.settleSegment status e) := by
  unfold State.settleSegment
  split
  · rfl
  · unfold State.failSegment
    split
    · rfl
    split <;> rfl

/-- R67, R76, R91: the in-flight list is released and its buffers are free. -/
theorem State.releaseInFlight_lane (s : State) : Lane s s.releaseInFlight := by
  unfold State.releaseInFlight
  dsimp only
  refine .of (SameLane.trans (t := s.setUls { s.uls with inFlight := [] }) rfl
    (.foldl (f := State.releaseSegment) (fun _ _ => rfl) _ _)) fun h => ?_
  refine State.Pool.foldl (fun h e => State.releaseSegment_pool h e) _ (h.setUls _ ?_)
  simp only [List.length_nil]
  omega

/-- R88 to R91: a status list is taken and the buffers of finished, lost and released segments are free. -/
theorem State.takeStatus_lane (s : State) (number : Half) (status : Vector Byte 32) :
    Lane s (s.takeStatus number status) := by
  unfold State.takeStatus
  split
  · exact .refl s
  · rename_i e rest he
    split
    · refine .of (SameLane.trans (t := s.setUls { s.uls with inFlight := [] }) rfl
        (.foldl (State.settleSegment_same status) _ _)) fun h => ?_
      refine State.Pool.foldl (fun h e => State.settleSegment_pool status h e) _ (h.setUls _ ?_)
      simp only [List.length_nil, he]
      omega
    · exact s.releaseInFlight_lane

/-- R66, R88: the in-flight entries at a marker that is not late. -/
theorem State.markerStatus_lane (s : State) (jump : Bool) (number : Half) (status : Vector Byte 32) :
    Lane s (s.markerStatus jump number status) := by
  unfold State.markerStatus
  split
  · exact s.releaseInFlight_lane
  · exact s.takeStatus_lane number status

end Sys2Proof.Machine
end

