-- ==== Sys2Proof/Laws/MovesOfPorts.lean ====
section
/-!
SUPPORT. The Port Controller's operations (Chapter 7) as moves, and what each does to the port's own record.
-/
namespace Sys2Proof.Machine

/-! ### Port records -/

/-- The parts of `PortRecord.ok` that a change of state must mind. -/
structure PortRecord.Flags (r : PortRecord) (st : PortState) : Prop where
  shed : r.shedPending = true → (st = .draining .test ∨ st = .inTest) ∧ r.returnState = none
  back : st = .isolated → r.returnState ≠ none
  isolated : r.returnState ≠ none → st = .isolated ∨ st = .inTest

theorem PortRecord.ok_iff (r : PortRecord) : r.ok = true ↔
    (r.relayTransceiver = r.state.serving ∧ (r.relayFrontEnd = true → r.state = .inTest) ∧
      (r.relayAccess = true → r.state = .inTest) ∧ ¬(r.relayFrontEnd = true ∧ r.relayAccess = true) ∧
      (r.link = true → r.state.serving = true) ∧ (r.takeWaiting = true → r.state = .draining .shed)) ∧ r.Flags r.state := by
  unfold PortRecord.ok
  simp only [Bool.and_eq_true, Bool.or_eq_true, Bool.not_eq_true', decide_eq_true_eq, beq_iff_eq,
    Option.isSome_iff_ne_none, Option.isNone_iff_eq_none]
  constructor
  · rintro ⟨⟨⟨⟨⟨⟨⟨⟨a, b⟩, c⟩, d⟩, e⟩, f⟩, g⟩, i⟩, j⟩
    refine ⟨⟨a, fun h => b.resolve_left (by simp [h]), fun h => c.resolve_left (by simp [h]), fun h => ?_,
      fun h => e.resolve_left (by simp [h]), fun h => f.resolve_left (by simp [h])⟩, fun h => g.resolve_left (by simp [h]),
      fun h => i.resolve_left (by simp [h]), fun h => ?_⟩
    · simp [h.1, h.2] at d
    · rcases j with (j | j) | j
      · exact absurd j h
      · exact .inl j
      · exact .inr j
  · rintro ⟨⟨a, b, c, d, e, f⟩, ⟨g, i, j⟩⟩
    refine ⟨⟨⟨⟨⟨⟨⟨⟨a, ?_⟩, ?_⟩, ?_⟩, ?_⟩, ?_⟩, ?_⟩, ?_⟩, ?_⟩
    · cases h : r.relayFrontEnd
      · exact .inl rfl
      · exact .inr (b h)
    · cases h : r.relayAccess
      · exact .inl rfl
      · exact .inr (c h)
    · cases h : r.relayFrontEnd <;> cases h' : r.relayAccess <;> simp_all
    · cases h : r.link
      · exact .inl rfl
      · exact .inr (e h)
    · cases h : r.takeWaiting
      · exact .inl rfl
      · exact .inr (f h)
    · cases h : r.shedPending
      · exact .inl rfl
      · exact .inr (g h)
    · by_cases h : r.state = .isolated
      · exact .inr (i h)
      · exact .inl h
    · by_cases h : r.returnState = none
      · exact .inl (.inl h)
      · rcases j h with h' | h'
        · exact .inl (.inr h')
        · exact .inr h'

theorem PortRecord.flags {r : PortRecord} (h : r.ok = true) : r.Flags r.state := (r.ok_iff.mp h).2

theorem PortRecord.ok_entered {r : PortRecord} {st : PortState} (h : r.Flags st)
    (relays : st = .inTest → ¬(r.relayFrontEnd = true ∧ r.relayAccess = true)) : (r.entered st).ok = true := by
  rw [PortRecord.ok_iff]
  refine ⟨⟨rfl, ?_, ?_, ?_, ?_, fun h => by cases h⟩, h.shed, h.back, h.isolated⟩
  · simp only [PortRecord.entered, Bool.and_eq_true, decide_eq_true_eq]; exact And.left
  · simp only [PortRecord.entered, Bool.and_eq_true, decide_eq_true_eq]; exact And.left
  · simp only [PortRecord.entered, Bool.and_eq_true, decide_eq_true_eq]
    rintro ⟨⟨a, b⟩, -, c⟩
    exact relays a ⟨b, c⟩
  · simp only [PortRecord.entered, linkAfter, Bool.and_eq_true]; exact fun h => h.1.2

/-! ### What leaves the port records alone -/

theorem State.autoRequest_ptc (s : State) (p : PortNo) (c : Condition) (n : Nat) :
    (s.autoRequest p c n).1.ptc = s.ptc := by
  unfold State.autoRequest State.noticeDisplaced
  split
  · rfl
  split
  · rfl
  split
  · rfl
  split
  · rfl
  split
  · dsimp only
    split
    · rfl
    · split <;> rfl
  · rfl

theorem State.levelAsk_ptc (s : State) (p : PortNo) (c : Condition) : (s.levelAsk p c).ptc = s.ptc := by
  unfold State.levelAsk; split
  · exact s.autoRequest_ptc p c _
  · rfl

theorem State.discardQueues_ptc (s : State) (p : PortNo) : (s.discardQueues p).ptc = s.ptc := rfl

theorem State.openFrontEnd_ptc (s : State) (p : PortNo) :
    (s.openFrontEnd p).ptc = tput s.ptc p { s.port p with relayFrontEnd := false } := by
  unfold State.openFrontEnd; dsimp only; split <;> rfl

theorem State.openFrontEnd_csu (s : State) (p : PortNo) : (s.openFrontEnd p).csu = s.csu := by
  unfold State.openFrontEnd; dsimp only; split <;> rfl

theorem State.openFrontEnd_connected (s : State) (p : PortNo) : (s.openFrontEnd p).mfe.connected ≠ some p := by
  unfold State.openFrontEnd; dsimp only; split
  · exact fun h => by cases h
  · assumption

theorem State.openFrontEnd_port (s : State) (p : PortNo) :
    (s.openFrontEnd p).port p = { s.port p with relayFrontEnd := false } := by
  unfold State.port; rw [State.openFrontEnd_ptc]; exact tget_tput_same _ _ _

theorem State.enterAs_port (s : State) (p : PortNo) (r : PortRecord) (st : PortState) :
    (s.enterAs p r st).port p = r.entered st := by
  unfold State.enterAs
  dsimp only
  generalize (if st ≠ .inTest then s.openFrontEnd p else s) = u
  have e : ∀ w : State, w.ptc = (u.setPort p (r.entered st)).ptc → w.port p = r.entered st := by
    intro w hw
    unfold State.port; rw [hw]; exact tget_tput_same _ _ _
  have a : ∀ (c : Bool) (v : State), v.ptc = (u.setPort p (r.entered st)).ptc →
      (if c = true then v else v.levelAsk p .link).port p = r.entered st := by
    intro c v hv
    split
    · exact e v hv
    · exact e _ ((v.levelAsk_ptc p .link).trans hv)
  refine a _ _ ?_
  split <;> split <;> split <;> split <;> rfl

/-! ### Entering a state -/

/-- R108 to R112: a port whose flags fit the state it enters moves there. -/
theorem State.enterAs_moves (s : State) (p : PortNo) (r : PortRecord) (st : PortState)
    (hfe : r.relayFrontEnd = (s.port p).relayFrontEnd) (hac : r.relayAccess = (s.port p).relayAccess)
    (hf : (s.port p).Flags (s.port p).state → r.Flags st) (hs : st = .inTest → (s.port p).state ≠ .inTest)
    (hu : s.csu.state = .unconfigured → (s.port p).state ≠ .unfitted) : Moves s (s.enterAs p r st) := by
  unfold State.enterAs
  dsimp only
  have first : Moves s ((if st ≠ .inTest then s.openFrontEnd p else s).setPort p (r.entered st)) := by
    by_cases h : st = .inTest
    · rw [if_neg (by simp [h])]
      refine .port s p _ (fun ok => ?_) ?_ (fun ok hr => ?_) (fun _ h' => absurd h h') fun h1 h2 => absurd h2 (hu h1)
      · have rel := (PortRecord.ok_iff _).mp ok
        exact PortRecord.ok_entered (hf rel.2) fun _ => by rw [hfe, hac]; exact rel.1.2.2.2.1
      · simp [PortRecord.entered, h, hfe]
      · have rel := (PortRecord.ok_iff _).mp ok
        simp only [PortRecord.entered, Bool.and_eq_true, hac] at hr
        exact absurd (rel.1.2.2.1 hr.2) (hs h)
    · rw [if_pos h]
      refine .trans (.openFrontEnd s p) (.port _ p _ (fun ok => ?_) ?_ (fun _ hr => ?_)
        (fun _ _ => .inr (s.openFrontEnd_connected p)) fun h1 h2 => ?_)
      · rw [State.openFrontEnd_port] at ok
        have fl := PortRecord.flags ok
        exact PortRecord.ok_entered (hf ⟨fl.shed, fl.back, fl.isolated⟩) fun e => absurd e h
      · rw [State.openFrontEnd_port]; simp [PortRecord.entered, h]
      · simp [PortRecord.entered, h] at hr
      · rw [State.openFrontEnd_csu] at h1
        rw [State.openFrontEnd_port] at h2
        exact absurd h2 (hu h1)
  refine .after (.ite (fun _ => .refl _) fun _ => State.levelAsk_moves _ _ _) ?_
  refine .after (.ite (fun _ => .lane (State.discardQueues_lane _ _)) fun _ => .refl _) ?_
  refine .after (.ite (fun _ => State.clearExit_moves _ _) fun _ => .refl _) ?_
  refine .after (.ite (fun _ => .refl _) fun _ => .lane (State.clearMapOf_lane _ _)) ?_
  exact .after (.ite (fun _ => .refl _) fun _ => .lane (State.clearDrain_lane _ _)) first

/-- A change of a record's flags alone. -/
theorem State.setFlags_moves (s : State) (p : PortNo) (r : PortRecord) (hs : r.state = (s.port p).state)
    (hl : r.link = (s.port p).link) (ht : r.relayTransceiver = (s.port p).relayTransceiver)
    (hfe : r.relayFrontEnd = (s.port p).relayFrontEnd)
    (hac : r.relayAccess = true → (s.port p).relayAccess = true ∧
      ((s.port p).state = .inTest → r.returnState.isNone = (s.port p).returnState.isNone))
    (hw : r.takeWaiting = true → (s.port p).takeWaiting = true ∨ r.state = .draining .shed)
    (hf : (s.port p).Flags (s.port p).state → r.Flags (s.port p).state) : Moves s (s.setPort p r) := by
  refine .port s p r (fun ok => ?_) hfe (fun ok h => ?_) (fun h1 h2 => absurd (hs.trans h1) h2) fun _ h => hs.trans h
  · have rel := (PortRecord.ok_iff _).mp ok
    refine (PortRecord.ok_iff _).mpr ⟨⟨?_, ?_, fun h => ?_, fun h => ?_, ?_, fun h => ?_⟩, hs ▸ hf rel.2⟩
    · rw [ht, hs]; exact rel.1.1
    · rw [hfe, hs]; exact rel.1.2.1
    · rw [hs]; exact rel.1.2.2.1 (hac h).1
    · exact rel.1.2.2.2.1 ⟨hfe ▸ h.1, (hac h.2).1⟩
    · rw [hl, hs]; exact rel.1.2.2.2.2.1
    · rcases hw h with h' | h'
      · rw [hs]; exact rel.1.2.2.2.2.2 h'
      · exact h'
  · have rel := (PortRecord.ok_iff _).mp ok
    exact ⟨(hac h).1, hs, (hac h).2 (rel.1.2.2.1 (hac h).1)⟩

/-! ### The requests -/

theorem State.enter_moves (s : State) (p : PortNo) (st : PortState)
    (hf : (s.port p).Flags (s.port p).state → (s.port p).Flags st) (hs : st = .inTest → (s.port p).state ≠ .inTest)
    (hu : s.csu.state = .unconfigured → (s.port p).state ≠ .unfitted) : Moves s (s.enter p st) :=
  s.enterAs_moves p (s.port p) st rfl rfl hf hs hu

/-- UNFITTED, IN SERVICE, OFF and DRAINING for SHED: no shed is pending and no isolation is in force. -/
def PortState.isPlain (st : PortState) : Prop :=
  st = .unfitted ∨ st = .inService ∨ st = .off ∨ st = .draining .shed

theorem PortRecord.Flags.plain {r : PortRecord} {st : PortState} (h : r.Flags st) (hs : st.isPlain) :
    r.shedPending = false ∧ r.returnState = none := by
  refine ⟨?_, ?_⟩
  · cases hw : r.shedPending
    · rfl
    · rcases (h.shed hw).1 with e' | e' <;> rcases hs with e | e | e | e <;> rw [e] at e' <;> cases e'
  · cases hw : r.returnState
    · rfl
    · rcases h.isolated (by simp [hw]) with e' | e' <;> rcases hs with e | e | e | e <;> rw [e] at e' <;> cases e'

theorem PortRecord.Flags.clear {r : PortRecord} {st : PortState} (s : r.shedPending = false) (b : r.returnState = none)
    (hs : st ≠ .isolated) : r.Flags st :=
  ⟨fun h => by simp [s] at h, fun h => absurd h hs, fun h => absurd b h⟩

/-- Flags that fit a plain state fit every state but ISOLATED. -/
theorem PortRecord.Flags.to {r : PortRecord} {st st' : PortState} (h : r.Flags st) (hs : st.isPlain)
    (h' : st' ≠ .isolated) : r.Flags st' :=
  .clear (h.plain hs).1 (h.plain hs).2 h'

theorem State.startDrain_moves (s : State) (p : PortNo) (d : DrainReason) (h : (s.port p).state = .inService) :
    Moves s (s.startDrain p d) := by
  unfold State.startDrain
  exact .after (.lane (State.setDrain_lane _ _ _)) (s.enter_moves p _
    (fun f => f.to (.inr (.inl h)) (by simp)) (fun e => by cases e) fun _ => by rw [h]; decide)

theorem State.startDrain_port (s : State) (p : PortNo) (d : DrainReason) :
    (s.startDrain p d).port p = (s.port p).entered (.draining d) := State.enterAs_port ..

theorem State.startDrain_then (s : State) (p : PortNo) (d : DrainReason) (st : PortState) (h : (s.port p).state = .inService)
    (hs : d = .test ∧ st = .inTest ∨ d = .shed ∧ st = .off) : Moves s ((s.startDrain p d).enter p st) := by
  refine .after (State.enter_moves _ p _ (fun f => ?_) (fun _ => ?_) fun _ => ?_) (s.startDrain_moves p d h)
  · rw [State.startDrain_port] at f ⊢
    rcases hs with ⟨rfl, rfl⟩ | ⟨rfl, rfl⟩
    · exact ⟨fun h => ⟨.inr rfl, (f.shed h).2⟩, (nomatch ·), fun _ => .inr rfl⟩
    · exact f.to (.inr (.inr (.inr rfl))) (by simp)
  · rw [State.startDrain_port]; exact fun e => by cases e
  · rw [State.startDrain_port]; exact fun e => by cases e

theorem State.take_moves (s : State) (p : PortNo) (k : TestKind) : Moves s (s.take p k).1 := by
  unfold State.take
  split
  · exact .refl s
  · rename_i h
    dsimp only
    split
    · exact s.startDrain_then p .test _ h (.inl ⟨rfl, rfl⟩)
    · exact s.startDrain_moves p .test h
  · exact .refl s
  · rename_i h
    refine s.setFlags_moves p _ rfl rfl rfl rfl (fun h => ⟨h, fun _ => rfl⟩) (fun _ => .inr h) fun f => ?_
    exact ⟨f.shed, f.back, f.isolated⟩
  · exact .refl s
  · rename_i h
    split
    · refine s.enter_moves p _ (fun f => ?_) (fun _ => by rw [h]; decide) fun _ => by rw [h]; decide
      rw [h] at f
      exact ⟨fun e => absurd (f.shed e).2 (f.back rfl), (nomatch ·), fun _ => .inr rfl⟩
    · exact .refl s
  · rename_i h
    exact s.enter_moves p _ (fun f => f.to (.inr (.inr (.inl h))) (by simp)) (fun _ => by rw [h]; decide)
      fun _ => by rw [h]; decide

theorem State.setReturn_moves (s : State) (p : PortNo) (x : ReturnState)
    (h : (s.port p).state = .isolated ∨ (s.port p).state = .inTest ∧ s.isolationInForce p = true) :
    Moves s (s.setReturn p (some x)) := by
  refine s.setFlags_moves p _ rfl rfl rfl rfl (fun e => ⟨e, fun e' => ?_⟩) .inl fun f => ?_
  · rcases h with h | h
    · rw [h] at e'; cases e'
    · have := h.2
      unfold State.isolationInForce at this
      cases hr : (s.port p).returnState <;> simp_all
  · have g := f.shed
    rcases h with h | h
    · rw [h] at f ⊢
      exact ⟨fun e => absurd (f.shed e).2 (f.back rfl), fun _ e => (by cases e), fun _ => .inl rfl⟩
    · have := h.2
      unfold State.isolationInForce at this
      rw [h.1] at f ⊢
      refine ⟨fun e => ?_, (nomatch ·), fun _ => .inr rfl⟩
      have := (f.shed e).2
      simp_all

theorem State.setShedPending_moves (s : State) (p : PortNo) (x : Bool)
    (h : x = false ∨ (s.port p).state = .draining .test ∨ (s.port p).state = .inTest ∧ s.isolationInForce p = false) :
    Moves s (s.setShedPending p x) := by
  refine s.setFlags_moves p _ rfl rfl rfl rfl (fun e => ⟨e, fun _ => rfl⟩) .inl fun f => ⟨fun e => ?_, f.back, f.isolated⟩
  rcases h with h | h | h
  · subst h; cases e
  · refine ⟨.inl h, ?_⟩
    show (s.port p).returnState = none
    cases hr : (s.port p).returnState
    · rfl
    · rcases f.isolated (by simp [hr]) with e' | e' <;> rw [h] at e' <;> cases e'
  · have := h.2
    unfold State.isolationInForce at this
    exact ⟨.inr h.1, by simpa using this⟩

theorem State.setTakeWaiting_moves (s : State) (p : PortNo) : Moves s (s.setTakeWaiting p false) :=
  s.setFlags_moves p _ rfl rfl rfl rfl (fun e => ⟨e, fun _ => rfl⟩) (fun e => nomatch e)
    fun f => ⟨f.shed, f.back, f.isolated⟩

theorem State.shed_moves (s : State) (p : PortNo) : Moves s (s.shed p) := by
  unfold State.shed
  split
  · exact .refl s
  · rename_i h
    dsimp only
    split
    · exact s.startDrain_then p .shed _ h (.inr ⟨rfl, rfl⟩)
    · exact s.startDrain_moves p .shed h
  · rename_i h; exact s.setShedPending_moves p true (.inr (.inl h))
  · exact .refl s
  · exact .refl s
  · rename_i h
    split
    · rename_i h'; exact s.setReturn_moves p _ (.inr ⟨h, h'⟩)
    · rename_i h'; exact s.setShedPending_moves p true (.inr (.inr ⟨h, by simpa using h'⟩))
  · rename_i h; exact s.setReturn_moves p _ (.inl h)

theorem State.returnPort_moves (s : State) (p : PortNo) : Moves s (s.returnPort p) := by
  unfold State.returnPort
  dsimp only
  split
  · rename_i h
    split
    · refine s.enterAs_moves p _ _ rfl rfl (fun _ => ?_) (fun e => nomatch e) fun _ => by rw [h]; decide
      exact ⟨(nomatch ·), fun _ e => (nomatch e), fun _ => .inl rfl⟩
    · rename_i h'
      have no : (s.port p).returnState = none := by
        simp only [Bool.or_eq_true, not_or, State.isolationInForce] at h'
        simpa using h'.2
      split
      · refine s.enterAs_moves p _ _ rfl rfl (fun _ => ?_) (fun e => nomatch e) fun _ => by rw [h]; decide
        exact .clear rfl no (by simp)
      · rename_i h''
        refine s.enter_moves p _ (fun _ => ?_) (fun e => nomatch e) fun _ => by rw [h]; decide
        simp only [Bool.or_eq_true, not_or] at h''
        exact .clear (by simpa using h''.1) no (by simp)
  · rename_i h
    have no : (s.port p).Flags (s.port p).state → (s.port p).returnState = none := fun f => by
      cases hr : (s.port p).returnState
      · rfl
      · rcases f.isolated (by simp [hr]) with e' | e' <;> rw [h] at e' <;> cases e'
    split
    · refine s.enterAs_moves p _ _ rfl rfl (fun f => ?_) (fun e => nomatch e) fun _ => by rw [h]; decide
      exact .clear rfl (no f) (by simp)
    · have a := s.enterAs_moves p { s.port p with shedPending := false } .inService rfl rfl
        (fun f => .clear rfl (no f) (by simp)) (fun e => nomatch e) fun _ => by rw [h]; decide
      split
      · exact .after (State.shed_moves _ p) a
      · exact a
  · exact s.setTakeWaiting_moves p
  · exact .refl s

theorem State.shedAtOnce_moves (s : State) (p : PortNo) : Moves s (s.shedAtOnce p).1 := by
  unfold State.shedAtOnce
  dsimp only
  split
  · exact .refl s
  · rename_i h
    exact s.enter_moves p _ (fun f => f.to (.inr (.inl h)) (by simp)) (fun e => nomatch e) fun _ => by rw [h]; decide
  · rename_i d h
    refine s.enterAs_moves p _ _ rfl rfl (fun f => ?_) (fun e => nomatch e) fun _ => by rw [h]; simp
    refine .clear rfl ?_ (by simp)
    show (s.port p).returnState = none
    cases hr : (s.port p).returnState
    · rfl
    · rcases f.isolated (by simp [hr]) with e' | e' <;> rw [h] at e' <;> cases e'
  · rename_i h
    split
    · refine s.enterAs_moves p _ _ rfl rfl (fun _ => ?_) (fun e => nomatch e) fun _ => by rw [h]; decide
      exact ⟨(nomatch ·), fun _ e => (nomatch e), fun _ => .inl rfl⟩
    · rename_i h'
      refine s.enterAs_moves p _ _ rfl rfl (fun _ => ?_) (fun e => nomatch e) fun _ => by rw [h]; decide
      exact .clear rfl (by simpa [State.isolationInForce] using h') (by simp)
  · rename_i h; exact s.setReturn_moves p _ (.inl h)
  · exact .refl s

theorem State.restore_moves (s : State) (p : PortNo) (k : TestKind) : Moves s (s.restore p k).1 := by
  unfold State.restore
  dsimp only
  split
  · exact .refl s
  · exact .refl s
  · exact s.setShedPending_moves p false (.inl rfl)
  · rename_i h
    have a := s.enter_moves p .inService (fun f => f.to (.inr (.inr (.inr h))) (by simp)) (fun e => nomatch e)
      fun _ => by rw [h]; decide
    split
    · exact .after (State.take_moves _ p k) a
    · exact a
  · rename_i h
    split
    · rename_i h'; exact s.setReturn_moves p _ (.inr ⟨h, h'⟩)
    · exact s.setShedPending_moves p false (.inl rfl)
  · rename_i h; exact s.setReturn_moves p _ (.inl h)
  · rename_i h
    exact s.enter_moves p _ (fun f => f.to (.inr (.inr (.inl h))) (by simp)) (fun e => nomatch e)
      fun _ => by rw [h]; decide

theorem PortRecord.Flags.isolate (r : PortRecord) (back : ReturnState) : (r.isolateWith back).Flags .isolated :=
  ⟨(nomatch ·), fun _ e => (nomatch e), fun _ => .inl rfl⟩

theorem State.isolate_moves (s : State) (p : PortNo) : Moves s (s.isolate p).1 := by
  unfold State.isolate
  dsimp only
  have go : ∀ back, (s.port p).state ≠ .unfitted → Moves s (s.enterAs p ((s.port p).isolateWith back) .isolated) :=
    fun back h => s.enterAs_moves p _ _ rfl rfl (fun _ => .isolate _ _) (fun e => nomatch e) fun _ => h
  split
  · exact .refl s
  · rename_i h; exact go _ (by rw [h]; decide)
  · rename_i h; exact go _ (by rw [h]; decide)
  · rename_i h; exact go _ (by rw [h]; decide)
  · rename_i h
    split
    · exact .refl s
    · refine s.setFlags_moves p _ rfl rfl rfl rfl (fun e => nomatch e) (fun e => nomatch e) fun _ => ?_
      rw [h]
      exact ⟨(nomatch ·), (nomatch ·), fun _ => .inr rfl⟩
  · exact .refl s
  · rename_i h; exact go _ (by rw [h]; decide)

theorem State.unisolate_moves (s : State) (p : PortNo) : Moves s (s.unisolate p) := by
  unfold State.unisolate
  dsimp only
  have go : ∀ st, (s.port p).state = .isolated → st ≠ .isolated → st ≠ .inTest →
      Moves s (s.enterAs p { s.port p with returnState := none } st) := by
    intro st h h' h''
    refine s.enterAs_moves p _ _ rfl rfl (fun f => ?_) (fun e => absurd e h'') fun _ => by rw [h]; decide
    rw [h] at f
    refine .clear ?_ rfl h'
    show (s.port p).shedPending = false
    cases hw : (s.port p).shedPending
    · rfl
    · rcases (f.shed hw).1 with e' | e' <;> cases e'
  split
  · rename_i h _; exact go _ h (by simp) (by simp)
  · rename_i h _; exact go _ h (by simp) (by simp)
  · exact .refl s

theorem State.disconnect_moves (s : State) (p : PortNo) : Moves s (s.disconnect p) := by
  unfold State.disconnect
  refine .after ?_ (.openFrontEnd s p)
  exact State.setFlags_moves _ p _ rfl rfl rfl rfl (fun e => nomatch e) .inl fun f => ⟨f.shed, f.back, f.isolated⟩

theorem State.linkIndication_moves (s : State) (p : PortNo) (up : Bool) : Moves s (s.linkIndication p up) := by
  unfold State.linkIndication
  dsimp only
  refine .ite (fun h => .after (State.cellEdge_moves _ p .link up) ?_) fun _ => .refl s
  have a : Moves s (s.setPort p { s.port p with link := up }) := by
    refine .port s p _ (fun ok => ?_) rfl (fun _ e => ⟨e, rfl, rfl⟩) (fun h1 h2 => absurd h1 h2) fun _ e => e
    have rel := (PortRecord.ok_iff _).mp ok
    exact (PortRecord.ok_iff _).mpr ⟨⟨rel.1.1, rel.1.2.1, rel.1.2.2.1, rel.1.2.2.2.1, fun _ => h.1, rel.1.2.2.2.2.2⟩,
      rel.2.shed, rel.2.back, rel.2.isolated⟩
  exact .after (.ite (fun _ => .refl _) fun _ => .lane (State.clearMapOf_lane _ p)) a

end Sys2Proof.Machine
end

