-- ==== Sys2Proof/Laws/MovesOfTests.lean ====
section
/-!
SUPPORT. The Test Sequencer's operations (Chapter 9), the front end's (Chapter 10), and the requests of the PTC with the
TSQ's reactions, as moves.
-/
namespace Sys2Proof.Machine

/-! ### The front end -/

theorem State.sourceOff_moves (s : State) : Moves s s.sourceOff := .mfe s _ rfl fun h => absurd rfl h

theorem State.startMeasuring_moves (s : State) (k : StepKind) : Moves s (s.startMeasuring k).1 := by
  unfold State.startMeasuring
  split
  · exact .mfe s _ rfl fun h => absurd rfl h
  · split
    · rename_i h; exact .mfe s _ rfl fun _ => .inr h
    · exact s.sourceOff_moves
  · split
    · rename_i h; exact .mfe s _ rfl fun _ => .inr h
    · exact s.sourceOff_moves
  · split
    · rename_i h; exact .mfe s _ rfl fun _ => .inr h
    · exact s.sourceOff_moves

theorem State.endMeasuring_moves (s : State) : Moves s s.endMeasuring := .mfe s _ rfl .inl

theorem State.startCalibration_moves (s : State) : Moves s s.startCalibration := by
  unfold State.startCalibration
  exact .ite (fun _ => .mfe s _ rfl .inl) fun _ => .refl s

theorem State.selfCheckFailed_moves (s : State) : Moves s (s.setMfe s.mfe.selfCheckFailed) := by
  unfold Mfe.selfCheckFailed
  split
  · exact .mfe s _ rfl fun h => absurd rfl h
  · exact .mfe s _ rfl fun h => absurd rfl h

theorem State.attemptEnd_moves (s : State) (a : Nat) (main check : Samples) (f : Half) :
    Moves s (s.setMfe (s.mfe.attemptEnd a main check f).1) := by
  unfold Mfe.attemptEnd
  dsimp only
  split
  · exact .mfe s _ rfl .inl
  · split
    · exact .mfe s _ rfl fun h => absurd rfl h
    · exact .mfe s _ rfl .inl

/-! ### The test sequencer's own fields -/

theorem State.setRunning_moves (s : State) (t : Option RunningTest) : Moves s (s.setRunning t) := .tsq s _ id id id

theorem State.dueSelect_moves (s : State) : Moves s s.dueSelect := .tsq s _ id id id

theorem State.stackMap_moves (s : State) (f : Context → Context) :
    Moves s (s.setTsq { s.tsq with stack := s.tsq.stack.map f }) := .tsq s _ id (by simp) id

theorem State.dropContext_moves (s : State) (p : PortNo) : Moves s (s.dropContext p) :=
  .tsq s _ id (fun h => Nat.le_trans (List.length_filter_le ..) h) id

theorem State.offerReport_moves (s : State) (r : ResultRecord) : Moves s (s.offerReport r) := by
  unfold State.offerReport
  exact .ite (fun _ => .refl s) fun _ => s.offer_moves _

/-- R153: the result log stays a ring of 16. -/
theorem State.logResult_moves (s : State) (r : ResultRecord) : Moves s (s.logResult r) := by
  unfold State.logResult
  dsimp only
  refine .after (.tsq _ _ id id fun h => ?_) (s.offerReport_moves r)
  dsimp only
  split
  · simp; omega
  · simp only [List.length_append, List.length_tail, List.length_singleton]
    unfold logCapacity at *
    omega

theorem State.passBinder_moves (s : State) (b : ResourceNo) (n : Option ResourceNo) : Moves s (s.passBinder b n) := by
  unfold State.passBinder
  exact .ite (fun _ => s.releaseAllBut_moves b) fun _ => s.releaseAll_moves

/-! ### The end of a test -/

theorem State.giveBackIf_moves (s : State) (p : PortNo) (owned : Bool) :
    Moves s (if owned = true then (s.disconnect p).returnPort p else s) :=
  .ite (fun _ => .after (State.returnPort_moves _ p) (s.disconnect_moves p)) fun _ => .refl s

theorem State.finishTest_moves (s : State) (t : RunningTest) (c : Option AbortCause) (owned chain : Bool) :
    Moves s (s.finishTest t c owned chain) := by
  unfold State.finishTest
  dsimp only
  refine .after (State.dueSelect_moves _) (.after (.ite (fun _ => State.passBinder_moves _ _ _) fun _ =>
    State.releaseAll_moves _) ?_)
  refine .after (State.settleNotices_moves _) (.after (State.noticeEnd_moves _ _ _ _) ?_)
  refine .after (State.setRunning_moves _ _) (.after (State.logResult_moves _ _) ?_)
  exact .after (State.giveBackIf_moves _ _ _) s.sourceOff_moves

theorem State.finishSuspended_moves (s : State) (c : Context) (cause : AbortCause) (owned : Bool) :
    Moves s (s.finishSuspended c cause owned) := by
  unfold State.finishSuspended
  dsimp only
  refine .after (State.noticeEnd_moves _ _ _ _) (.after (State.dropContext_moves _ _) ?_)
  exact .after (State.logResult_moves _ _) (State.giveBackIf_moves _ _ _)

theorem State.abortTests_moves (s : State) (c : AbortCause) : Moves s (s.abortTests c) := by
  unfold State.abortTests
  dsimp only
  refine .after (State.dueSelect_moves _) (.after (.foldl (fun s x => s.finishSuspended_moves x c true) _ _) ?_)
  split
  · exact s.finishTest_moves _ _ _ _
  · exact .refl s

theorem State.removeEntry_moves (s : State) (e : QueueEntry) (c : AbortCause) : Moves s (s.removeEntry e c) := by
  unfold State.removeEntry
  dsimp only
  refine .after (State.noticeLeave_moves _) (.after (State.noticeRemoved_moves _ _ _) (.after (State.logResult_moves _ _) ?_))
  exact .tsq s _ (fun h => Nat.le_trans (dropMade_le _ _) h) id id

theorem State.frontEndFailed_moves (s : State) : Moves s s.frontEndFailed := by
  unfold State.frontEndFailed
  dsimp only
  exact .after (.foldl (fun s e => s.removeEntry_moves e .frontEnd) _ _) (s.abortTests_moves _)

/-! ### Steps and claims -/

theorem State.enterStep_moves (s : State) (t : RunningTest) : Moves s (s.enterStep t) := by
  unfold State.enterStep
  split
  · exact s.finishTest_moves _ _ _ _
  · split
    · exact s.finishTest_moves _ _ _ _
    · exact .after (State.setRunning_moves _ _) (s.startMeasuring_moves _)

theorem State.goOn_moves (s : State) (t : RunningTest) : Moves s (s.goOn t) := by
  unfold State.goOn
  dsimp only
  split
  · split
    · rename_i h
      refine .after (State.setRunning_moves _ _) (.after (.ite (fun _ => .refl _) fun _ => State.offerReport_moves _ _) ?_)
      exact .connectAccess s _ h
    · exact s.finishTest_moves _ _ _ _
  · split
    · rename_i h
      have a : Moves s (s.connectFrontEnd t.entry.port) := .connectFrontEnd s _ h
      split
      · exact .after (State.enterStep_moves _ t) a
      · exact .after (State.setRunning_moves _ _) (.after (State.startCalibration_moves _) a)
    · exact s.finishTest_moves _ _ _ _

theorem State.leaveClaim_moves (s : State) (t : RunningTest) : Moves s (s.leaveClaim t) := by
  unfold State.leaveClaim
  dsimp only
  split
  · exact .after (State.goOn_moves _ t) (s.markInUse_moves _)
  · exact .after (State.setRunning_moves _ _) (s.markInUse_moves _)

theorem State.heldNotice_moves (s : State) (r : ResourceNo) : Moves s (s.heldNotice r) := by
  unfold State.heldNotice
  split
  · exact .refl s
  · dsimp only
    split
    · split
      · exact s.leaveClaim_moves _
      · split
        · exact s.markWaiting_moves _
        · exact .refl s
    · exact .refl s

theorem State.requestClaims_moves (s : State) (t : RunningTest) : Moves s (s.requestClaims t) := by
  unfold State.requestClaims
  dsimp only
  refine .after (.ite (fun _ => State.heldNotice_moves _ _) fun _ => .refl _) ?_
  refine .after (.ite (fun _ => State.claimAccess_moves _) fun _ => .refl _) ?_
  exact .after (State.claimBinder_moves _ _) (s.setRunning_moves _)

theorem State.givenNotice_moves (s : State) (p : PortNo) : Moves s (s.givenNotice p) := by
  unfold State.givenNotice
  split
  · split
    · dsimp only
      split
      · exact s.requestClaims_moves _
      · split
        · exact s.goOn_moves _
        · exact s.setRunning_moves _
    · exact s.stackMap_moves _
  · exact s.stackMap_moves _

/-! ### Start, resume, suspension -/

theorem State.startTest_moves (s : State) (e : QueueEntry) : Moves s (s.startTest e) := by
  unfold State.startTest
  dsimp only
  have a : ∀ t : RunningTest, Moves s (((s.setTsq { s.tsq with queue := dropMade s.tsq.queue e.made, running := some t }
      ).noticeStart e.port e.kind).noticeLeave).settleNotices := fun t => by
    refine .after (State.settleNotices_moves _) (.after (State.noticeLeave_moves _) (.after (State.noticeStart_moves _ _ _) ?_))
    exact .tsq s _ (fun h => Nat.le_trans (dropMade_le _ _) h) id id
  have b := fun t => Moves.after (State.take_moves _ e.port e.kind) (a t)
  split
  · exact .after (State.requestClaims_moves _ _) (b _)
  · exact .after (State.requestClaims_moves _ _) (b _)
  · exact .after (State.setRunning_moves _ _) (b _)
  · exact .after (State.finishTest_moves _ _ _ _ _) (b _)

theorem State.resumeTest_moves (s : State) (c : Context) : Moves s (s.resumeTest c) := by
  unfold State.resumeTest
  generalize (if c.claims = true then { c.test with claimWait := 0 } else c.test) = t
  dsimp only
  have a : ∀ t, Moves s (s.setTsq { s.tsq with stack := s.tsq.stack.tail, running := some t }) := fun t =>
    .tsq s _ id (fun h => by simp only [List.length_tail]; omega) id
  split
  · exact .after (State.finishTest_moves _ _ _ _ _) (a _)
  · exact .after (State.requestClaims_moves _ _) (a _)

theorem State.disconnect_tsq (s : State) (p : PortNo) : (s.disconnect p).tsq = s.tsq := by
  unfold State.disconnect State.openFrontEnd
  dsimp only
  split <;> rfl

theorem State.suspendFor_moves (s : State) (t : RunningTest) (e : QueueEntry) (h : s.tsq.stack.length < stackCapacity) :
    Moves s (s.suspendFor t e) := by
  unfold State.suspendFor
  dsimp only
  refine .after (State.startTest_moves _ _) (.after (State.passBinder_moves _ _ _) ?_)
  refine .after (.tsq _ _ id (fun _ => ?_) id) (.after (State.disconnect_moves _ _) s.sourceOff_moves)
  rw [State.disconnect_tsq]
  exact h

theorem State.preemptor?_room {s : State} {t : RunningTest} {e : QueueEntry} (h : s.preemptor? t = some e) :
    s.tsq.stack.length < stackCapacity := by
  unfold State.preemptor? at h
  split at h
  · assumption
  · cases h

theorem State.preemptCheck_moves (s : State) : Moves s s.preemptCheck := by
  unfold State.preemptCheck
  split
  · exact .refl s
  · split
    · split
      · rename_i h; exact s.suspendFor_moves _ _ (State.preemptor?_room h)
      · exact .refl s
    · exact .refl s

/-! ### Ends -/

theorem State.afterStep_moves (s : State) (t : RunningTest) : Moves s (s.afterStep t) := by
  unfold State.afterStep
  split
  · exact s.finishTest_moves _ _ _ _
  · split
    · rename_i h; exact s.suspendFor_moves _ _ (State.preemptor?_room h)
    · exact s.enterStep_moves t

theorem State.failSelfCheck_moves (s : State) (t : RunningTest) : Moves s (s.failSelfCheck t) := by
  unfold State.failSelfCheck
  dsimp only
  split
  · exact .after (State.frontEndFailed_moves _) s.selfCheckFailed_moves
  · exact .after (State.finishTest_moves _ _ _ _ _) s.selfCheckFailed_moves

theorem State.completeStep_moves (s : State) (main check : Samples) : Moves s (s.completeStep main check) := by
  unfold State.completeStep
  split
  · exact .refl s
  · split
    · split
      · exact .refl s
      · split
        · exact s.failSelfCheck_moves _
        · dsimp only
          exact .after (State.afterStep_moves _ _) s.endMeasuring_moves
    · exact .refl s

theorem State.endStepSettle_moves (s : State) : Moves s s.endStepSettle := by
  unfold State.endStepSettle
  split
  · exact .refl s
  · split
    · exact s.setRunning_moves _
    · exact .refl s

theorem State.endCalibration_moves (s : State) (main check : Samples) : Moves s (s.endCalibration main check) := by
  unfold State.endCalibration
  split
  · rename_i a n h
    have b := s.attemptEnd_moves a main check s.uls.f
    dsimp only
    split
    · exact b
    · exact .after (State.frontEndFailed_moves _) b
    · refine .after ?_ b
      split
      · exact .ite (fun _ => State.enterStep_moves _ _) fun _ => .refl _
      · exact .refl _
  · exact .refl s

theorem State.endAccessHold_moves (s : State) : Moves s s.endAccessHold := by
  unfold State.endAccessHold
  split
  · exact .refl s
  · exact .ite (fun _ => s.finishTest_moves _ _ _ _) fun _ => .refl s

theorem State.endClaimWait_moves (s : State) : Moves s s.endClaimWait := by
  unfold State.endClaimWait
  split
  · exact .refl s
  · exact .ite (fun _ => s.finishTest_moves _ _ _ _) fun _ => .refl s

/-! ### The close of an event -/

theorem runSelect_moves (n : Nat) (s : State) : Moves s (runSelect n s) := by
  induction n generalizing s with
  | zero => exact .tsq s _ id id id
  | succ n ih =>
    unfold runSelect
    split
    · have a : Moves s (s.setTsq { s.tsq with selectDue := false }) := .tsq s _ id id id
      dsimp only
      split
      · exact a
      · split
        · exact a
        · exact .after (ih _) (.after (State.settleNotices_moves _) (.after (State.startTest_moves _ _) a))
        · exact .after (ih _) (.after (State.settleNotices_moves _) (.after (State.resumeTest_moves _ _) a))
    · exact .refl s

theorem State.settleEvent_moves (s : State) : Moves s s.settleEvent :=
  .after (runSelect_moves 64 _) s.settleNotices_moves

/-! ### Interruptions -/

theorem State.lostNotice_moves (s : State) (r : ResourceNo) : Moves s (s.lostNotice r) := by
  unfold State.lostNotice
  split
  · exact .refl s
  · dsimp only
    split
    · exact .refl s
    · split
      · have a : ∀ t p, Moves s ((s.sourceOff.disconnect p).setRunning t) := fun t p =>
          .after (State.setRunning_moves _ _) (.after (State.disconnect_moves _ p) s.sourceOff_moves)
        split
        · exact .after (.ite (fun _ => State.markWaiting_moves _ _) fun _ => .refl _)
            (.after (State.claimAccess_moves _) (a _ _))
        · exact .after (State.claimBinder_moves _ _) (a _ _)
      · exact s.finishTest_moves _ _ _ _

theorem State.withdrawnNotice_moves (s : State) (p : PortNo) : Moves s (s.withdrawnNotice p) := by
  unfold State.withdrawnNotice
  split
  · split
    · exact s.finishTest_moves _ _ _ _
    · exact .after (State.givenNotice_moves _ p) (s.take_moves p .fv)
  · split
    · split
      · exact State.finishSuspended_moves _ _ _ _
      · exact .after (State.givenNotice_moves _ p) (s.take_moves p .fv)
    · exact .refl s

theorem State.inForceNotice_moves (s : State) (p : PortNo) : Moves s (s.inForceNotice p) := by
  unfold State.inForceNotice
  split
  · exact .ite (fun _ => s.finishTest_moves _ _ _ _) fun _ => .refl s
  · split
    · exact .ite (fun _ => State.finishSuspended_moves _ _ _ _) fun _ => .refl s
    · exact .refl s

/-! ### The PTC's requests with the TSQ's reactions -/

theorem State.doIsolate_moves (s : State) (p : PortNo) : Moves s (s.doIsolate p) := by
  unfold State.doIsolate
  dsimp only
  have a : Moves s ((s.isolate p).1.enforceSource) := .after (.enforceSource _) (s.isolate_moves p)
  split
  · exact a
  · exact .after (State.withdrawnNotice_moves _ p) a
  · exact .after (State.inForceNotice_moves _ p) a

theorem State.doShedAtOnce_moves (s : State) (p : PortNo) : Moves s (s.doShedAtOnce p) := by
  unfold State.doShedAtOnce
  dsimp only
  exact .after (.ite (fun _ => State.withdrawnNotice_moves _ p) fun _ => .refl _) (s.shedAtOnce_moves p)

theorem State.movedNotice_moves (s : State) (p : PortNo) : Moves s (s.movedNotice p) := by
  unfold State.movedNotice
  split
  · exact .ite (fun _ => s.requestClaims_moves _) fun _ => .refl s
  · exact .refl s

theorem State.doRestore_moves (s : State) (p : PortNo) : Moves s (s.doRestore p) := by
  unfold State.doRestore
  have a := s.restore_moves p s.runningKind
  split
  · rename_i t h; rw [h] at a; exact a
  · rename_i t ended h
    rw [h] at a
    dsimp only
    exact .after (.ite (fun _ => State.givenNotice_moves _ p) fun _ => .refl _) (.after (State.movedNotice_moves _ p) a)

theorem State.doDrainEnd_moves (s : State) (p : PortNo) : Moves s (s.doDrainEnd p) := by
  unfold State.doDrainEnd
  split
  · rename_i h
    refine .after (State.givenNotice_moves _ p) (s.enter_moves p _ (fun f => ?_) (fun _ => by rw [h]; decide)
      fun _ => by rw [h]; decide)
    rw [h] at f
    exact ⟨fun e => ⟨.inr rfl, (f.shed e).2⟩, (nomatch ·), fun _ => .inr rfl⟩
  · rename_i h
    dsimp only
    have a := s.enter_moves p .off (fun f => f.to (.inr (.inr (.inr h))) (by simp)) (fun e => nomatch e)
      fun _ => by rw [h]; decide
    split
    · refine .after (State.givenNotice_moves _ p) (.after (State.enter_moves _ p _ (fun f => ?_) (fun _ => ?_) fun _ => ?_) a)
      · have e : ((s.enter p .off).port p).state = .off := by
          unfold State.enter; rw [State.enterAs_port]; rfl
        rw [e] at f
        exact f.to (.inr (.inr (.inl rfl))) (by simp)
      · unfold State.enter; rw [State.enterAs_port]; exact fun e => by cases e
      · unfold State.enter; rw [State.enterAs_port]; exact fun e => by cases e
    · exact a
  · exact .refl s

theorem State.endEmptyDrains_moves (s : State) : Moves s s.endEmptyDrains := by
  unfold State.endEmptyDrains
  refine .foldl (fun s p => ?_) _ s
  unfold State.endEmptyDrain
  exact .ite (fun _ => .after (State.settleEvent_moves _) (s.doDrainEnd_moves p)) fun _ => .refl s

/-! ### The PVU's events with the TSQ's reactions -/

theorem State.doSettleEnd_moves (s : State) (r : ResourceNo) : Moves s (s.doSettleEnd r) := by
  unfold State.doSettleEnd
  exact .ite (fun _ => .after (State.heldNotice_moves _ r) (s.enterHeld_moves r)) fun _ => .refl s

theorem State.hearClaim_moves (s : State) (r : ResourceNo) (x : Nat) (t : Half) (hx : x ≠ s.csu.address) :
    Moves s (s.hearClaim r x t) := by
  unfold State.hearClaim
  split
  · rename_i h; exact s.observe_moves r x t (by rw [h]; decide) hx
  · rename_i h; exact s.observe_moves r x t (by rw [h]; decide) hx
  · rename_i h; exact s.contest_moves r x t (by rw [h]; decide) hx
  · exact s.offerHold_moves r

theorem State.hearHold_moves (s : State) (r : ResourceNo) (x : Nat) (t : Half) (hx : x ≠ s.csu.address) :
    Moves s (s.hearHold r x t) := by
  unfold State.hearHold
  split
  · rename_i h; exact s.observe_moves r x t (by rw [h]; decide) hx
  · rename_i h; exact s.observe_moves r x t (by rw [h]; decide) hx
  · rename_i h; exact s.contest_moves r x t (by rw [h]; decide) hx
  · exact .ite (fun _ => s.offerHold_moves r) fun _ => .after (State.lostNotice_moves _ r) (s.loseClaim_moves r x t hx)

theorem State.doLapse_moves (s : State) (r : ResourceNo) : Moves s (s.doLapse r) := by
  unfold State.doLapse
  exact .ite (fun _ => s.lapseClaim_moves r) fun _ => .refl s

/-! ### Power decisions -/

theorem State.actOn_moves (s : State) (d : PortNo × Bool) : Moves s (s.actOn d) := by
  unfold State.actOn
  dsimp only
  split
  · exact .after (.ite (fun _ => .after (State.settleEvent_moves _) (State.doRestore_moves _ _)) fun _ => .refl _)
      (.restore s _ _)
  · refine .after (.ite (fun _ => State.doShedAtOnce_moves _ _) fun _ => State.shed_moves _ _) (.restore s _ _)

theorem State.actOnAll_moves (s : State) (ds : List (PortNo × Bool)) : Moves s (s.actOnAll ds) :=
  .foldl State.actOn_moves ds s

end Sys2Proof.Machine
end

