-- ==== Sys2Proof/Laws/Settle.lean ====
section
/-!
SUPPORT. The close of an event: with no leave notice and no selection left over it changes nothing.
-/
namespace Sys2Proof.Machine

theorem State.settled_iff (s : State) : s.settled = true ↔ s.leu.leaveDue = false ∧ s.tsq.selectDue = false := by
  simp [State.settled]

theorem State.quiet_iff (s : State) : s.quiet = true ↔ s.settled = true ∧ s.tsq.running = none := by
  simp [State.quiet]

theorem settleLeaves_of (n : Nat) (s : State) (h : s.leu.leaveDue = false) : settleLeaves (n + 1) s = s := by
  unfold settleLeaves
  rw [h]
  rfl

theorem State.settleNotices_of (s : State) (h : s.leu.leaveDue = false) : s.settleNotices = s := settleLeaves_of 255 s h

theorem runSelect_of (n : Nat) (s : State) (h : s.tsq.selectDue = false) : runSelect (n + 1) s = s := by
  unfold runSelect
  rw [h]
  rfl

/-- A settled state is its own close. -/
theorem State.settleEvent_of (s : State) (h : s.settled = true) : s.settleEvent = s := by
  obtain ⟨a, b⟩ := s.settled_iff.mp h
  unfold State.settleEvent
  rw [s.settleNotices_of a, runSelect_of 63 s b]

end Sys2Proof.Machine
end

