-- ==== Sys2Proof/Laws/TxQueue.lean ====
section
/-!
SUPPORT. The transmit queue and the transmitter (R6 to R12): every operation of Machine/Bus.lean keeps `Pbi.ok`, and so
does every move.
-/
namespace Sys2Proof.Machine

/-- The parts of `Pbi.ok`. -/
structure Pbi.Good (b : Pbi) : Prop where
  sorted : b.queue.Pairwise fun x y => x.order < y.order
  entries : ∀ e ∈ b.queue, e.order < b.nextOrder ∧ 1 ≤ e.attempt ∧ e.attempt ≤ 8
  room : b.queue.length ≤ txCapacity
  idle : b.tx = .idle → b.queue = []
  gap : b.tx = .waitingGap → b.queue ≠ []
  sending : ∀ o, b.tx = .sending o → ∃ e ∈ b.queue, e.order = o
  backoff : ∀ o w, b.tx = .backoff o w → ∃ e ∈ b.queue, e.order = o

theorem Pbi.ok_iff (b : Pbi) : b.ok = true ↔ b.Good := by
  have : b.ok = true ↔ ((b.queue.Pairwise fun x y => x.order < y.order) ∧
      (∀ e ∈ b.queue, e.order < b.nextOrder ∧ 1 ≤ e.attempt ∧ e.attempt ≤ 8) ∧ b.queue.length ≤ txCapacity) ∧
      (match b.tx with
        | .idle => b.queue.isEmpty
        | .waitingGap => !b.queue.isEmpty
        | .sending o => b.queue.any fun e => decide (e.order = o)
        | .backoff o _ => b.queue.any fun e => decide (e.order = o)) = true := by
    simp only [Pbi.ok, Bool.and_eq_true, decide_eq_true_eq, List.all_eq_true, and_assoc] <;> exact .rfl
  rw [this]
  constructor
  · rintro ⟨⟨a, b', c⟩, d⟩
    refine ⟨a, b', c, fun h => ?_, fun h => ?_, fun o h => ?_, fun o w h => ?_⟩ <;> rw [h] at d <;> simpa using d
  · rintro ⟨a, b', c, d, e, f, g⟩
    refine ⟨⟨a, b', c⟩, ?_⟩
    cases h : b.tx with
    | idle => simpa using d h
    | waitingGap => simpa using e h
    | sending o => simpa using f o h
    | backoff o w => simpa using g o w h

theorem Pbi.Good.map {b : Pbi} (h : b.Good) {f : TxEntry → TxEntry} {t : TxState} (order : ∀ x, (f x).order = x.order)
    (attempt : ∀ x ∈ b.queue, 1 ≤ x.attempt → x.attempt ≤ 8 → 1 ≤ (f x).attempt ∧ (f x).attempt ≤ 8)
    (tx : t = b.tx ∨ ∃ o w, t = .backoff o w ∧ ∃ e ∈ b.queue, e.order = o) :
    Pbi.Good { b with queue := b.queue.map f, tx := t } := by
  have mem : ∀ o, (∃ e ∈ b.queue, e.order = o) → ∃ e ∈ b.queue.map f, e.order = o := by
    rintro o ⟨e, he, rfl⟩
    exact ⟨f e, List.mem_map_of_mem he, order e⟩
  refine ⟨?_, ?_, ?_, ?_, ?_, ?_, ?_⟩
  · refine List.pairwise_map.mpr (h.sorted.imp fun {x y} hxy => ?_)
    rw [order, order]; exact hxy
  · intro e he
    obtain ⟨x, hx, rfl⟩ := List.mem_map.mp he
    obtain ⟨a, c, d⟩ := h.entries x hx
    refine ⟨?_, attempt x hx c d⟩
    rw [order]; exact a
  · simpa using h.room
  · intro ht
    rcases tx with g | ⟨o, w, g, -⟩
    · simpa using h.idle (g ▸ ht)
    · rw [show t = .idle from ht] at g; cases g
  · intro ht
    rcases tx with g | ⟨o, w, g, -⟩
    · simpa using h.gap (g ▸ ht)
    · rw [show t = .waitingGap from ht] at g; cases g
  · intro o ht
    rcases tx with g | ⟨o, w, g, -⟩
    · exact mem o (h.sending o (g ▸ ht))
    · rw [show t = .sending _ from ht] at g; cases g
  · intro o w ht
    rcases tx with g | ⟨o', w', g, k⟩
    · exact mem o (h.backoff o w (g ▸ ht))
    · rw [show t = .backoff _ _ from ht] at g
      cases g; exact mem _ k

theorem Pbi.Good.keep {b : Pbi} (h : b.Good) {f : TxEntry → Bool} {t : TxState}
    (tx : t = txAfter (b.queue.filter f) ∨
      (∃ o, t = .sending o ∧ ∃ e ∈ b.queue.filter f, e.order = o) ∨
      ∃ o w, t = .backoff o w ∧ ∃ e ∈ b.queue.filter f, e.order = o) :
    Pbi.Good { b with queue := b.queue.filter f, tx := t } := by
  have after : ∀ q : List TxEntry, (txAfter q = .idle → q = []) ∧ (txAfter q = .waitingGap → q ≠ []) ∧
      (∀ o, txAfter q ≠ .sending o) ∧ ∀ o w, txAfter q ≠ .backoff o w := by
    intro q; unfold txAfter
    cases q <;> simp
  obtain ⟨a1, a2, a3, a4⟩ := after (b.queue.filter f)
  refine ⟨h.sorted.filter f, fun e he => h.entries e (List.mem_filter.mp he).1,
    Nat.le_trans (List.length_filter_le ..) h.room, ?_, ?_, ?_, ?_⟩
  · intro ht
    rcases tx with g | ⟨o, g, k⟩ | ⟨o, w, g, k⟩
    · exact a1 (g ▸ ht)
    · rw [show t = .idle from ht] at g; cases g
    · rw [show t = .idle from ht] at g; cases g
  · intro ht
    rcases tx with g | ⟨o, g, k⟩ | ⟨o, w, g, k⟩
    · exact a2 (g ▸ ht)
    · rw [show t = .waitingGap from ht] at g; cases g
    · rw [show t = .waitingGap from ht] at g; cases g
  · intro o ht
    rcases tx with g | ⟨o, g, k⟩ | ⟨o, w, g, k⟩
    · exact absurd (g ▸ ht) (a3 o)
    · rw [show t = .sending _ from ht] at g; cases g; exact k
    · rw [show t = .sending _ from ht] at g; cases g
  · intro o w ht
    rcases tx with g | ⟨o, g, k⟩ | ⟨o, w, g, k⟩
    · exact absurd (g ▸ ht) (a4 o w)
    · rw [show t = .backoff _ _ from ht] at g; cases g
    · rw [show t = .backoff _ _ from ht] at g; cases g; exact k

theorem Pbi.Good.join {b : Pbi} (h : b.Good) (room : b.queue.length < txCapacity) (m : Message) (r : Bool) :
    (b.join m r).Good := by
  unfold Pbi.join
  refine ⟨?_, ?_, ?_, ?_, ?_, ?_, ?_⟩
  · refine List.pairwise_append.mpr ⟨h.sorted, by simp, ?_⟩
    intro x hx y hy
    rw [List.mem_singleton.mp hy]
    exact (h.entries x hx).1
  · intro e he
    rcases List.mem_append.mp he with he | he
    · obtain ⟨a, c⟩ := h.entries e he
      exact ⟨Nat.lt_succ_of_lt a, c⟩
    · rw [List.mem_singleton.mp he]
      exact ⟨Nat.lt_succ_self _, Nat.le_refl 1, show 1 ≤ 8 by decide⟩
  · simpa using Nat.succ_le_of_lt room
  · intro ht
    simp only at ht
    split at ht
    · cases ht
    · rename_i c; exact absurd ht c
  · intro _; simp
  · intro o ht
    simp only at ht
    split at ht
    · cases ht
    · obtain ⟨e, he, k⟩ := h.sending o ht
      exact ⟨e, List.mem_append_left _ he, k⟩
  · intro o w ht
    simp only at ht
    split at ht
    · cases ht
    · obtain ⟨e, he, k⟩ := h.backoff o w ht
      exact ⟨e, List.mem_append_left _ he, k⟩

/-- An update of counters and of the receiver only. -/
theorem Pbi.Good.same {b c : Pbi} (h : b.Good) (q : c.queue = b.queue) (n : c.nextOrder = b.nextOrder)
    (t : c.tx = b.tx) : c.Good := by
  refine ⟨?_, ?_, ?_, ?_, ?_, ?_, ?_⟩ <;> simp only [q, n, t]
  · exact h.sorted
  · exact h.entries
  · exact h.room
  · exact h.idle
  · exact h.gap
  · exact h.sending
  · exact h.backoff

/-- R12: the queue without an entry that is not in SENDING. -/
theorem Pbi.Good.without {b : Pbi} (h : b.Good) {e : TxEntry} (hs : b.tx.sendingOrder e.order = false) :
    Pbi.Good { b with queue := dropOrder b.queue e.order, tx := txWithout b.tx (dropOrder b.queue e.order) e.order } := by
  have keep : ∀ o, o ≠ e.order → (∃ x ∈ b.queue, x.order = o) → ∃ x ∈ dropOrder b.queue e.order, x.order = o := by
    rintro o ho ⟨x, hx, rfl⟩
    exact ⟨x, List.mem_filter.mpr ⟨hx, by simpa using ho⟩, rfl⟩
  unfold dropOrder at *
  cases ht : b.tx with
  | idle =>
    have hq := h.idle ht
    refine h.same ?_ rfl (by simp [ht, txWithout])
    simp [hq]
  | waitingGap => exact h.keep (.inl rfl)
  | sending o =>
    have ho : o ≠ e.order := by
      rintro rfl
      rw [ht] at hs; simp [TxState.sendingOrder] at hs
    exact h.keep (.inr (.inl ⟨o, rfl, keep o ho (h.sending o ht)⟩))
  | backoff o w =>
    simp only [txWithout]
    split
    · exact h.keep (.inl rfl)
    · rename_i ho
      exact h.keep (.inr (.inr ⟨o, w, rfl, keep o ho (h.backoff o w ht)⟩))

/-- R9, R11, R12: an offer keeps the queue in order. -/
theorem Pbi.Good.offer {b : Pbi} (h : b.Good) (m : Message) (r : Bool) : (b.offer m r).Good := by
  unfold Pbi.offer
  split
  · unfold Pbi.supersede
    refine h.map (t := b.tx) ?_ ?_ (.inl rfl)
    · intro x; split <;> rfl
    · intro x _ a c
      split
      · dsimp only; split
        · exact ⟨a, c⟩
        · exact ⟨Nat.le_refl _, by decide⟩
      · exact ⟨a, c⟩
  · split
    · rename_i room; exact h.join room m r
    · split
      · exact h.same rfl rfl rfl
      · split
        · exact h.same rfl rfl rfl
        · rename_i e he
          have hm : e ∈ b.queue := by simpa using List.mem_of_find?_eq_some he
          have hs : b.tx.sendingOrder e.order = false := by
            have := List.find?_some he
            simp only [Bool.and_eq_true, Bool.not_eq_true'] at this
            exact this.2
          refine Pbi.Good.join ?_ ?_ m r
          · exact (h.without hs).same rfl rfl rfl
          · exact Nat.lt_of_lt_of_le (dropOrder_lt hm) h.room

theorem Soft.tx {s t : State} (h : Soft s t) (hs : s.pbi.Good) : t.pbi.Good := by
  induction h with
  | trans _ _ ih1 ih2 => exact ih2 (ih1 hs)
  | offer s m r => exact hs.offer m r
  | dropped s => exact hs.same rfl rfl rfl
  | _ => exact hs

/-- R9 to R12: every move keeps the transmit queue in order. -/
theorem Moves.tx {s t : State} (h : Moves s t) (hs : s.pbi.Good) : t.pbi.Good := by
  induction h with
  | refl => exact hs
  | trans _ _ ih1 ih2 => exact ih2 (ih1 hs)
  | offer s m r => exact hs.offer m r
  | dropped s => exact hs.same rfl rfl rfl
  | enforced h =>
    obtain ⟨v, m, e⟩ := State.enforce_same _
    rw [e]; exact h.tx hs
  | enforceSource s => obtain ⟨m, e⟩ := s.enforceSource_same; rw [e]; exact hs
  | openFrontEnd s p => unfold State.openFrontEnd; dsimp only; split <;> exact hs
  | lane h => rw [h.same]; exact hs
  | _ => exact hs

end Sys2Proof.Machine
end

