-- ==== Sys2Proof/Tests/Slice0.lean ====
section
/-!
SUPPORT. Tests: the range checks refuse what is out of range, the spec's worked cases come out as it says, and for each
statement with hypotheses a concrete state meets them (`witness_…`), clause by clause.
-/
namespace Sys2Proof.Tests

-- One check at a time: many kernel evaluations at once would each take a thread's stack.
set_option Elab.async false

open Sys2Proof Sys2Proof.Machine

/-! ### The range checks -/

theorem test_wf_lengths :
    Instr.wellFormed (.messageEnd ⟨1, 0, 3, List.replicate 49 0, 0⟩) = false ∧
    Instr.wellFormed (.downstreamSegment 1 0 2 [7] 0) = false ∧ Instr.wellFormed (.chargeTimerStop 65536) = false ∧
    Instr.wellFormed (.clearEvents 30 0 0 (List.replicate 23 (0, 0))) = false := by decide

theorem test_wf_peer_sources :
    Instr.wellFormed (.demand 0 0 0 0) = false ∧ Instr.wellFormed (.spanClaim 17 0 0 0) = false ∧
    Instr.wellFormed (.load 17 0 0 0 0 0 0) = false ∧ Instr.wellFormed (.claim 0 0 0) = false ∧
    Instr.wellFormed (.hold 17 0 0) = false ∧ Instr.wellFormed (.release 0 0) = false := by decide

theorem test_wf_station_sources :
    Instr.wellFormed (.testOrder 0 0 0 1 1 0) = false ∧ Instr.wellFormed (.testCancel 32 0) = false ∧
    Instr.wellFormed (.configureEngine 0 0 ⟨0, 0, 0, 0, 0, 0, 0, 0, 0, 0, 0, 0, 0, 0, 0⟩) = false ∧
    Instr.wellFormed (.configurePort 32 0 ⟨0, 0, 0, 0, 0, 0, 0, 0, 0, 0, 0, 0, 0⟩) = false ∧
    Instr.wellFormed (.restart 0 0) = false ∧ Instr.wellFormed (.clearEvents 32 0 0 []) = false := by decide

theorem test_wf_queries :
    Instr.wellFormed (.statusQueryEngine 0 0 0) = false ∧ Instr.wellFormed (.statusQueryPort 32 0 0 0) = false ∧
    Instr.wellFormed (.statusQueryEvents 0 0) = false ∧ Instr.wellFormed (.statusQueryTests 32 0) = false ∧
    Instr.wellFormed (.statusQueryLog 0 0 0) = false ∧ Instr.wellFormed (.statusQueryClaims 32 0) = false ∧
    Instr.wellFormed (.statusQueryPeer 0 0 1) = false ∧
    Instr.wellFormed (.statusQueryUnknownSelector 0 0 9) = false ∧
    Instr.wellFormed (.statusQueryUnknownSelector 30 0 6) = false := by decide

/-! ### Worked cases of the spec -/

/-- R185: the nine bytes 31 to 39 hexadecimal give 29B1. -/
theorem test_check_value : messageCheck [0x31, 0x32, 0x33, 0x34, 0x35, 0x36, 0x37, 0x38, 0x39] = 0x29B1 := by
  decide +kernel

/-- 3.3.1: a station share, and R50's time. -/
theorem test_station_share :
    let q : AuRequest := ⟨.stationShare, 0, [⟨2, 70, 4⟩, ⟨5, 20, 2⟩, ⟨7, 50, 2⟩, ⟨9, 5, 1⟩], 120, [2, 5, 7, 9]⟩
    q.allocations = [(2, 64), (5, 20), (7, 31), (9, 5)] ∧ q.micros = 28 := by decide

/-- 3.3.2: a port division, and R50's time. -/
theorem test_port_division :
    let q : AuRequest := ⟨.portDivision, 0, [⟨0, 10, 2⟩, ⟨3, 16, 1⟩, ⟨7, 2, 1⟩], 18, [3, 7, 0]⟩
    q.allocations = [(0, 10), (3, 6), (7, 2)] ∧ q.micros = 30 := by decide

/-- 3.3.4: leftover units pass over a requester that is settled. -/
theorem test_leftover_passed_over :
    (AuRequest.allocations ⟨.portDivision, 0, [⟨4, 0, 1⟩, ⟨6, 20, 1⟩, ⟨8, 20, 1⟩, ⟨10, 20, 1⟩], 11, [4, 6, 8, 10]⟩) =
      [(4, 0), (6, 4), (8, 4), (10, 3)] := by decide

/-- 1.4.1: the backoff waits of engines 3 and 6 after attempt 1. -/
theorem test_backoff_waits : backoffWait 2 3 1 = 40 ∧ backoffWait 2 6 1 = 20 := by decide

/-- R157: -72 / 16 rounds to -5 and 72 / 16 to 5. -/
theorem test_mean_rounds_away : roundMean (-72) = -5 ∧ roundMean 72 = 5 ∧ roundMean 72768 = 4548 := by decide

/-- 10.8.2: the resistances of Vm 4545, 4999 and 4990, the balance and the length. -/
theorem test_full_test_values :
    resistanceOf 4545 = 999 ∧ resistanceOf 4999 = 99999 ∧ resistanceOf 4990 = 49900 ∧ balanceOf 3210 2980 = 7 ∧
      lengthOf 61500 50 = 1230 := by decide

/-- 10.8.1: attempt 1 with 12 and -50 fails, 240 and 230 fails, 8 and 2 is good. -/
theorem test_calibration_judged :
    calibrationGood 12 (-50) = false ∧ calibrationGood 240 230 = false ∧ calibrationGood 8 2 = true := by decide

/-- R29 and the Introduction: a stamp of 65530 is earlier than 4, and at a distance of 32768 the lower address wins. -/
theorem test_stamps : stampEarlier 65530 4 = true ∧ beats 0 3 32768 5 = true ∧ beats 32768 5 0 3 = false := by decide

/-- R185: a value is its flags and 21 signed bits, high byte first. -/
theorem test_value_bytes :
    StepValue.bytes ⟨-97, true, false, false⟩ = [0x9F, 0xFF, 0x9F] ∧ StepValue.bytes ⟨655350, false, true, true⟩ =
      [0x69, 0xFF, 0xF6] := by decide

/-! ### Small states -/

/-- A port's part: class STANDARD, weight 1, limit 64, binder 2, every sense mode NONE. -/
def part : PortPart := ⟨.standard, 1, 64, 2, ⟨.none, 0⟩, ⟨.none, 0⟩, ⟨.none, 0⟩, 20, 2⟩

/-- An engine part with ports 0 and 1 fitted. -/
def parts : EnginePart := ⟨3, 3, 4, 1000, 500, 50, 10, 500, 450, 400, 200, 100, 5, 10, 3⟩

/-- A record of a port in service with its link up. -/
def serving : PortRecord := { PortRecord.powerOn with state := .inService, link := true, relayTransceiver := true }

/-- Engine 5 in RUN with ports 0 and 1 in service. -/
def run : State :=
  { State.reset with
    csu := { Csu.powerOn with
      state := .run, address := 5, engine := some parts
      ports := tput (tput (Vector.replicate 12 none) 0 (some part)) 1 (some part) }
    ptc := tput (tput (Vector.replicate 12 PortRecord.powerOn) 0 serving) 1 serving }

/-- The same engine in UNCONFIGURED. -/
def bare : State := run.setCsu { run.csu with state := .unconfigured }

/-- The same engine in CONFLICT. -/
def clash : State := run.setCsu { run.csu with state := .conflict }

/-- A packet record of three segments. -/
def packet : PacketRecord := ⟨0, 130, 3, 3, 0, [List.replicate 64 1, List.replicate 64 2, [3, 3]]⟩

/-- Port p holds that packet. -/
def holding (s : State) (p : PortNo) : State := (s.setPq p { s.pq p with queue := [packet], next := 1 }).takeBuffers 3

/-- Port p is in another state. -/
def inState (s : State) (p : PortNo) (st : PortState) : State :=
  s.setPort p { PortRecord.powerOn with
    state := st, relayTransceiver := st.serving, returnState := if st = .isolated then some .inService else none }

/-- A queue entry of station 30 for port 0. -/
def entry (k : TestKind) : QueueEntry := ⟨30, 7, 0, k, 5, if k = .access then 2 else 0, 0, .order, 0⟩

/-- A test of that entry in a phase. -/
def test (k : TestKind) (ph : Phase) (n : Nat) (st : StepStage) : RunningTest :=
  ⟨entry k, ph, n, [], .given, 0, 0, 0, 9, 0, st, false⟩

/-- Resource r with another own state and holder. -/
def claimed (s : State) (r : ResourceNo) (own : OwnState) (holder : Option Nat) : State :=
  s.setClaim r { s.claimOf r with own := own, holder := holder }

/-- That test running, with its port in IN TEST and its binder HELD. -/
def testing (t : RunningTest) : State := claimed ((inState run 0 .inTest).setRunning (some t)) 2 .held (some 5)

/-- That test in a step, with its port connected to the front end in this activity. -/
def measuring (k : TestKind) (n : Nat) (a : Activity) : State :=
  let s := testing (test k .step n .integrating)
  (s.setPort 0 { s.port 0 with relayFrontEnd := true }).setMfe { s.mfe with connected := some 0, activity := a }

/-- That test running while its port is in another state, with a take waiting where that state is DRAINING for SHED. -/
def taking (t : RunningTest) (st : PortState) : State :=
  let s := (inState run 0 st).setRunning (some t)
  s.setPort 0 { s.port 0 with takeWaiting := decide (st = .draining .shed) }

/-- A test whose take the port has not given yet. -/
def sent (k : TestKind) (ph : Phase) : RunningTest := { test k ph 1 .notBegun with take := .sent }

/-- That test running with the claim for resource r SETTLING. -/
def settling (t : RunningTest) (r : ResourceNo) : State := claimed (testing t) r .settling none

/-- Port p with other flags. -/
def flagged (s : State) (p : PortNo) (f : PortRecord → PortRecord) : State := s.setPort p (f (s.port p))

/-- A request of station 30 to engine 5. -/
def request (kind : Byte) (payload : List Byte) : RxMessage :=
  ⟨kind, 5, 30, payload, messageCheck (kind :: 5 :: 30 :: natByte payload.length :: payload)⟩

/-- A receiver in RECEIVING. -/
def hearing (s : State) : State := s.setPbi { s.pbi with rx := .receiving }

/-- A DEMAND entry in the transmit queue. -/
def demandEntry (o : Nat) : TxEntry := ⟨.demand 0 1 1, o, 1, .backoff, false⟩

/-- An ANSWER entry in the transmit queue. -/
def answerEntry (o : Nat) : TxEntry := ⟨.answer 30 8 0 .accepted 0, o, 1, .backoff, false⟩

/-- A CLAIM entry in the transmit queue. -/
def claimEntry (o : Nat) : TxEntry := ⟨.claim 3 0, o, 1, .backoff, false⟩

/-- The transmit queue holds these entries. -/
def sending (s : State) (q : List TxEntry) (tx : TxState) : State :=
  s.setPbi { s.pbi with queue := q, nextOrder := 9, tx := tx }

/-- Sixteen equal samples. -/
def flat (v : Int) : Samples := Vector.replicate 16 v

/-- A peer entry of engine 3 with a demand, a load and these spans. -/
def peer (spans : List SpanRecord) : PeerEntry := ⟨3, some ⟨0, 10, 2, 4⟩, spans, some ⟨0, 10, 20, 30, 5, 1, 2⟩⟩

/-- The peer table holds that entry. -/
def withPeer (s : State) (spans : List SpanRecord) : State := s.setPvu { s.pvu with peers := [peer spans] }

/-- The sync state is this. -/
def synced (s : State) (x : SyncState) : State := s.setUls { s.uls with sync := x }

/-- The cell of port p and condition c has this mode and priority 3. -/
def watched (s : State) (p : PortNo) (c : Condition) (m : SenseMode) : State :=
  s.setCell p c { s.cell p c with mode := m, priority := 3 }

/-- The tier is this. -/
def atTier (s : State) (t : Fin 5) : State := s.setPmg { s.pmg with tier := t }

/-- An engine in the midst of its work: a measuring test with the source on, a packet, a peer with a span of the epoch,
a segment in flight, a DEMAND waiting for its gap, and a command at the front of the queue. -/
def busy : State :=
  let s := measuring .ir 5 .measuring
  let s := withPeer (holding (sending s [demandEntry 0] .waitingGap) 1) [⟨0, 6, 2⟩]
  let s := s.setUls { s.uls with
    inFlight := [⟨1, 0, 0, false, 1, 9, 0, [4]⟩], grantMap := [(9, 1)], granted := 1
    coverage := (List.range 128).map fun k => if k = 6 ∨ k = 7 then 1 else 0 }
  { (s.setMfe { s.mfe with source := .voltage }).takeBuffers 1 with pending := [.frameTimerExpiry ⟨520, flat 0, flat 0⟩] }

/-- The state a command answers. -/
def after (s : State) (c : Instr) : State :=
  match exec c s with
  | .next t => t
  | .fault _ => s
  | .refused _ => s

/-! ### A command's effect, one step each -/

/-- 1.4.1: engine 3's DEMAND collides at attempt 1 and backs off for 40 bit times. -/
theorem test_collision_backs_off :
    let t := after ((sending run [demandEntry 0] (.sending 0)).setCsu { run.csu with address := 3 }) .collision
    t.pbi.tx = .backoff 0 40 ∧ t.pbi.collisions = 1 := by decide +kernel

/-- 10.8.1: the second failed attempt makes the front end FAILED and aborts the IR test with FRONT END. -/
theorem test_second_failure_fails_the_front_end :
    let s := testing (test .ir .calibrate 1 .notBegun)
    let t := after (s.setMfe { s.mfe with activity := .calibrating 2 3, failures := 1 })
      (.calibrationAttemptEnd (flat 240) (flat 230))
    t.mfe.failed = true ∧ t.tsq.running = none ∧ t.tsq.log.map (fun r => r.2.cause) = [some .frontEnd] := by
  decide +kernel

/-- R179, R180: the second of two parts completes the image of port 0 and takes the engine to RUN. -/
theorem test_configuration_enters_run :
    let t := after State.reset (.configureEngine 30 1 ⟨1, 3, 4, 1000, 500, 50, 10, 500, 450, 400, 200, 100, 5, 10, 3⟩)
    let u := after t (.configurePort 30 2 ⟨0, 1, 1, 0, 2, 0, 0, 0, 0, 0, 0, 20, 2⟩)
    t.csu.state = .unconfigured ∧ u.csu.state = .run ∧ (u.port 0).state = .inService := by decide +kernel

/-- R97: a packet of 130 bytes takes three buffers. -/
theorem test_packet_takes_three_buffers :
    let t := after run (.packetArrival 1 (List.replicate 130 9))
    t.pqm.free = 509 ∧ t.queued 1 = 3 ∧ (t.pq 1).next = 1 := by decide +kernel

/-- R166, R169: with no mean a fall of MAINS gives tier 1, and in RUN an evaluation follows. -/
theorem test_mains_fall :
    let t := after run .mainsFall
    t.pmg.mains = .absent ∧ t.pmg.tier = 1 ∧ t.pmg.evaluation = 1 := by decide +kernel

/-- R171: in UNCONFIGURED the wants count the fitted ports whose parts are held, and no other port: with the part of port 1
missing the two STANDARD ports want 20 in place of 40. -/
theorem test_wants_count_held_parts :
    let s := { bare with ptc := Vector.replicate 12 PortRecord.powerOn }
    let one := s.setCsu { s.csu with ports := tput s.csu.ports 1 none }
    let other := s.setCsu { s.csu with ports := tput s.csu.ports 2 (some part) }
    s.sWant = 40 ∧ one.sWant = 20 ∧ other.sWant = 40 ∧ s.eWant = 5 ∧ s.presentLoad = 5 := by decide +kernel

/-- R131, R156: a peak of 65.01 V isolates a serving port, and one of 65.00 V does not. -/
theorem test_foreign_voltage_isolates :
    let t := after run (.fvdEdge 0 ⟨0, 6501, 0⟩)
    (t.port 0).state = .isolated ∧ (t.port 0).relayTransceiver = false ∧ (t.port 1).state = .inService ∧
      ((after run (.fvdEdge 0 ⟨6500, 6500, 6500⟩)).port 0).state = .inService := by
  decide +kernel

/-- R156: a ground fault begins below 20 kilohms on either wire and ends with both above 25. -/
theorem test_ground_fault_thresholds :
    let t := after run (.gfltEdge 0 ⟨19999, 90000⟩)
    (t.line 0).gfltLevel = true ∧ ((after run (.gfltEdge 0 ⟨20000, 20000⟩)).line 0).gfltLevel = false ∧
      ((after t (.gfltEdge 0 ⟨25000, 90000⟩)).line 0).gfltLevel = true ∧
      ((after t (.gfltEdge 0 ⟨25001, 25001⟩)).line 0).gfltLevel = false := by
  decide +kernel

/-- R13: a start character that a collision has altered leads to DISCARDING, and nothing is counted. -/
theorem test_altered_start_is_discarded :
    let s := sending (run.setPbi { run.pbi with rx := .idle, idle := 20 }) [demandEntry 0] .waitingGap
    let t := after (after (after s (.transmitStart 20)) .collision) .nonStartCharacter
    t.pbi.rx = .discarding ∧ t.pbi.rxDiscard = 0 ∧ (after t .discardingEnd).pbi.rx = .idle := by
  decide +kernel

/-- R66, R94: after a backward jump whose marker is the in-flight frame plus 1 the entries are released. -/
theorem test_backward_jump_releases :
    let u : Uls := { run.uls with f := 12, sync := .sync, shareEpoch := 1, inFlight := [⟨1, 0, 0, false, 1, 9, 10, [4]⟩] }
    let status : Vector Byte 32 := Vector.replicate 32 0
    let t := after (run.setUls u) (.frameMarker 11 status (messageCheck (halfBytes 11 ++ status.toList)) 900 ⟨520, flat 0, flat 0⟩)
    t.uls.inFlight = [] ∧ t.uls.retransmit = [] ∧ (t.pq 1).counters.unconfirmed = 1 := by
  decide +kernel

/-- R82, R86: a division in time puts the segments of port 1 in the first usable slots. -/
theorem test_division_fills_slots :
    let s := (holding run 1).setUls { run.uls with division := some ⟨7, [20, 21, 22, 23], [1]⟩, f := 7 }
    let t := after { s with au := ⟨some ⟨.portDivision, 7, [⟨1, 3, 1⟩], 4, [1]⟩, none, none, none⟩ } .portDivisionCompletion
    t.uls.grantMap = [(20, 1), (21, 1), (22, 1)] ∧ t.uls.inFlight.map (fun e => (e.slot, e.index, e.last)) =
      [(20, 0, false), (21, 1, false), (22, 2, true)] ∧ t.queued 1 = 0 ∧ t.uls.rotation = 1 := by decide +kernel

/-! ### The hypotheses of the statements are met -/

/-- No cell of these states waits. -/
theorem none_waits (s : State) (h : (allCells.all fun x => decide ((s.cell x.1 x.2).request ≠ .waitRoom) &&
    decide ((s.cell x.1 x.2).request ≠ .waitEnd)) = true) : s.noCellWaits := by
  intro p c
  have hm : (p, c) ∈ allCells := by revert p; cases c <;> decide
  have := List.all_eq_true.mp h _ hm
  simpa using this

/-- No test runs, waits or is suspended in these states. -/
theorem no_tests (s : State) (h : (s.settled && decide (s.tsq.running = none ∧ s.tsq.queue = [] ∧ s.tsq.stack = [] ∧
    s.mfe.source = .off) && (allPorts.all fun p => !(s.cell p .link).mode.isLevel) && s.portsOk && s.testsOwnPorts) = true)
    (w : s.noCellWaits) : s.noTests := by
  simp only [Bool.and_eq_true, decide_eq_true_eq] at h
  obtain ⟨⟨⟨⟨h1, h2, h3, h4, h5⟩, h6⟩, h7⟩, h8⟩ := h
  exact ⟨h1, h2, h3, h4, h5, w, fun p => by simpa using List.all_eq_true.mp h6 p (by revert p; decide), h7, h8⟩

/-- The test x runs alone in these states. -/
theorem runs_alone (s : State) (x : RunningTest) (h : (s.settled && decide (s.tsq.running = some x ∧ s.tsq.queue = [] ∧
    s.tsq.stack = [] ∧ (s.cell x.entry.port .link).mode.isLevel = false) && allCells.all fun y =>
      decide ((s.cell y.1 y.2).request ≠ .waitRoom) && decide ((s.cell y.1 y.2).request ≠ .waitEnd)) = true) :
    s.runsAlone x := by
  simp only [Bool.and_eq_true, decide_eq_true_eq] at h
  obtain ⟨⟨h1, h2, h3, h4, h5⟩, h6⟩ := h
  exact ⟨h1, h2, h3, h4, none_waits s h6, h5⟩

/-- Nothing falls due at frame f in these states, in which no test is there and no calibration runs. -/
theorem nothing_due (s : State) (f : Half) (h : (s.settled && decide (s.tsq.running = none ∧ s.tsq.queue = [] ∧
    s.tsq.stack = [] ∧ s.mfe.activity = .idle) && decide (s.uls.shareEpoch = f.toNat / 8 ∧ s.pmg.powerEpoch = f.toNat / 64 ∧
      f.toNat % 8 < 4 ∧ f.toNat % 64 < 16) && (allResources.all fun r => decide ((s.claimOf r).silence < 199 ∧
      (s.claimOf r).own = .none ∧ (s.claimOf r).holdOff = none)) && (allPorts.all fun p =>
      decide ((s.port p).state.isDraining = false ∧ (s.line p).exit < 63)) &&
      allCells.all fun y => !(s.cell y.1 y.2).mode.isLevel) = true) : s.nothingDueAt f := by
  simp only [Bool.and_eq_true, decide_eq_true_eq] at h
  obtain ⟨⟨⟨⟨⟨h1, h2, h3, h4, h5⟩, h6, h7, h8, h9⟩, hr⟩, hp⟩, hc⟩ := h
  have hr r := by simpa using List.all_eq_true.mp hr r (by revert r; decide)
  have hp p := by simpa using List.all_eq_true.mp hp p (by revert p; decide)
  have hc p c := by simpa using List.all_eq_true.mp hc (p, c) (by revert p; cases c <;> decide)
  refine ⟨h1, fun r => ⟨fun _ => (hr r).1, ?_, ?_, ?_⟩, h6, h7, fun _ => .inr h8, fun _ => .inr h9,
    fun p => ⟨?_, (hp p).2, ?_⟩, fun _ => ⟨h3, h4⟩, ?_, ?_⟩
  · simp [(hr r).2.1]
  · simp [(hr r).2.1]
  · simp [(hr r).2.2]
  · simp [(hp p).1]
  · intro c h; simp [hc p c] at h
  · intro x hx; rw [h2] at hx; cases hx
  · intro a n hx; rw [h5] at hx; cases hx

/-- A step always answers a next state, so this premise is met with every state's own step. -/
theorem steps (s : State) (h : (match step s with | .next _ => true | _ => false) = true) : ∃ t, step s = .next t := by
  revert h; cases step s <;> simp

theorem witness_StepRunsTheFrontCommand : run.pending = [] := by decide

theorem witness_OnlyStationCommandsChangeTheConfiguration :
    (∃ t, exec (.powerOnReset 3 0 0 true) run = .next t ∧ t.csu.address ≠ run.csu.address) ∧
    ∃ t, exec (.restart 30 1) bare = .next t ∧ t.csu ≠ bare.csu :=
  ⟨⟨_, rfl, by decide⟩, ⟨_, rfl, by decide +kernel⟩⟩

/-- For BuffersAlwaysTotal512, LimitsAndSettlingAreKept, LineSafetyIsKept, HolderAgreesWithOwnState, PeerTableStaysInOrder,
CoverageCountsTheCoveringPeers, TransmitQueueStaysInOrder, LaneListsStayInOrder and TestsOwnTheirPorts. -/
theorem witness_invariants :
    (busy.poolOk && busy.withinLimits && busy.settled && busy.lineSafe && busy.claimsOk && busy.peersOk &&
      busy.coverageOk && busy.pbi.ok && busy.laneOk && busy.testsOwnPorts) = true ∧ ∃ t, step busy = .next t :=
  ⟨by decide +kernel, steps busy (by decide +kernel)⟩

theorem witness_AllocationsSumToTheSmaller :
    let q : AuRequest := ⟨.stationShare, 0, [⟨2, 70, 4⟩, ⟨5, 20, 2⟩], 60, [2, 5]⟩
    (q.requesters.map Requester.id).Nodup ∧ q.order.Perm (q.requesters.map Requester.id) :=
  ⟨by decide, List.Perm.refl _⟩

theorem witness_ExactlyOneClaimBeatsTheOther : (3 : Nat) ≠ 5 ∧ (32768#16 - 0#16).toNat = 32768 := by decide

theorem witness_ReportsReadBackAsSent : (hearing run).receivingOther ∧ 1 ≤ (hearing run).csu.address ∧
    (1 : Nat) ≠ (hearing run).csu.address ∧ (16 : Nat) ≠ (hearing run).csu.address := by
  unfold State.receivingOther; decide

/-- A request to engine 5, a report, and a request to engine 7. -/
def validOnes : List RxMessage :=
  [request 8 [0, 7], (Message.demand 0 10 1).framed 3, ⟨8, 7, 30, [0, 7], messageCheck [8, 7, 30, 2, 0, 7]⟩]

theorem witness_ValidMessagesAreHandedOn :
    (hearing run).receivingOther ∧ 1 ≤ (hearing run).csu.address ∧
    (∀ m ∈ validOnes, m.checkRight ∧ m.kindRight ∧ m.source.toNat ≠ (hearing run).csu.address) ∧
    (∀ m ∈ validOnes, m.lengthRight) ∧ ∀ m ∈ validOnes, ¬ m.isUnexpected (hearing run).csu.address :=
  ⟨by unfold State.receivingOther; decide, by decide,
    by unfold RxMessage.checkRight RxMessage.kindRight; decide +kernel,
    by unfold RxMessage.lengthRight; dsimp only; decide, by unfold RxMessage.isUnexpected; decide⟩

theorem witness_ValidMessagesAreHandedOn_clauses :
    (request 8 [0, 7]).dest.toNat = (hearing run).csu.address ∧ ((Message.demand 0 10 1).framed 3).dest = 0 ∧
      (7#8).toNat ≠ (hearing run).csu.address := by decide

/-- A kind of 16; a DEMAND of 3 bytes; a DEMAND from address 5; a TEST CANCEL to 0. -/
def wrongOnes : List RxMessage :=
  [⟨16, 0, 3, [], messageCheck [16, 0, 3, 0]⟩, ⟨1, 0, 3, [0, 0, 0], messageCheck [1, 0, 3, 3, 0, 0, 0]⟩,
    (Message.demand 0 10 1).framed 5, ⟨8, 0, 30, [0, 7], messageCheck [8, 0, 30, 2, 0, 7]⟩]

theorem witness_MessagesInErrorAreDiscarded :
    (hearing run).receivingOther ∧ (hearing clash).csu.state = .conflict ∧
    ¬ RxMessage.checkRight ⟨1, 0, 3, [0, 0, 0, 0], 0⟩ ∧ (∀ m ∈ wrongOnes, m.checkRight) ∧
    (¬ (wrongOnes[0]).kindRight ∧ ∀ m ∈ wrongOnes.tail, m.kindRight) ∧
    (¬ (wrongOnes[1]).lengthRight ∧ ∀ m ∈ wrongOnes.drop 2, m.lengthRight) ∧
    ((wrongOnes[2]).source.toNat = (hearing run).csu.address ∧ (wrongOnes[3]).source.toNat ≠ (hearing run).csu.address ∧
      (wrongOnes[3]).isUnexpected (hearing run).csu.address) :=
  ⟨by unfold State.receivingOther; decide, by decide, by unfold RxMessage.checkRight; decide +kernel,
    by unfold RxMessage.checkRight; decide +kernel, by unfold RxMessage.kindRight; decide,
    ⟨by unfold RxMessage.lengthRight; dsimp only; decide, by unfold RxMessage.lengthRight; dsimp only; decide⟩, by unfold RxMessage.isUnexpected; decide⟩

/-- Claims to release; a test's port in every state a test's port can be in; and drains for SHED with and without packets. -/
theorem witness_SelfDiscardEntersConflict :
    let m : RxMessage := (Message.demand 0 10 1).framed 5
    let s := hearing (claimed run 2 .held (some 5))
    s.receivingOther ∧ s.csu.state ≠ .conflict ∧ m.checkRight ∧ m.kindRight ∧ m.lengthRight ∧
      m.source.toNat = s.csu.address ∧ s.claimed.length ≤ 8 := by
  unfold State.receivingOther RxMessage.checkRight RxMessage.kindRight RxMessage.lengthRight
  dsimp only
  decide +kernel

theorem witness_SelfDiscardEntersConflict_ports :
    let t := test .fv .claim 1 .notBegun
    let forced := flagged (testing t) 0 fun r => { r with returnState := some .off }
    let drain := taking (sent .fv .claim) (.draining .test)
    (∀ s ∈ [testing t, forced, (testing t).setLine 0 { run.line 0 with fvdLevel := true }, drain, atTier drain 4,
        flagged drain 0 fun r => { r with shedPending := true }, taking (sent .fv .claim) (.draining .shed),
        inState run 1 (.draining .shed), holding (inState run 1 (.draining .shed)) 1],
      s.poolOk = true ∧ s.portsOk = true ∧ s.testsOwnPorts = true) ∧
    0 ∈ (testing t).testPorts ∧ 1 ∉ (testing t).testPorts ∧ run.queued 1 = 0 ∧ (holding run 1).queued 1 = 3 := by
  decide +kernel

theorem witness_ReceiverFollowsTheLine :
    ((hearing run).setPbi { (hearing run).pbi with ownEnded := true }).pbi.ownEnded = true ∧ run.pbi.ownEnded = false ∧
    run.pbi.rx = .discarding ∧ run.pbi.rx ≠ .idle ∧ run.pbi.rx ≠ .receiving ∧ (hearing run).pbi.rx = .receiving ∧
    (hearing run).pbi.rx ≠ .discarding ∧ (run.setPbi { run.pbi with rx := .idle }).pbi.rx = .idle ∧
    (sending run [demandEntry 0] (.sending 0)).pbi.tx = .sending 0 := by decide

theorem witness_TransmitterSendsInOrder :
    (∀ tx ∈ [TxState.waitingGap, .sending 0, .backoff 0 40],
      (sending run [demandEntry 0, answerEntry 1] tx).pbi.ok = true ∧
        demandEntry 0 ∈ (sending run [demandEntry 0, answerEntry 1] tx).pbi.queue) ∧
    (∀ x ∈ [demandEntry 0, answerEntry 1], (demandEntry 0).msg.cls < x.msg.cls ∨
      ((demandEntry 0).msg.cls = x.msg.cls ∧ (demandEntry 0).order ≤ x.order)) ∧
    ∀ o, (sending run [demandEntry 0] .waitingGap).pbi.tx ≠ .sending o :=
  ⟨by decide +kernel, by decide, fun o h => by simp [sending, State.setPbi] at h⟩

/-- Attempts 1, 7 and 8. -/
theorem witness_CollisionsBackOffOrDrop :
    ∀ a ∈ [1, 7, 8],
      let e := { demandEntry 0 with attempt := a }
      let s := sending run [e, answerEntry 1] (.sending 0)
      s.pbi.ok = true ∧ e ∈ s.pbi.queue ∧ s.pbi.tx = .sending e.order ∧ e.fate = .backoff ∧
        ∀ x ∈ s.pbi.queue, x.order ≠ e.order → x.msg.supersedes e.msg = false := by decide +kernel

/-- A queued DEMAND is superseded; a CLAIM joins a queue of 7; an ANSWER meets a queue of 8; a CLAIM meets one of 8
without, and one with, a class 3 entry. -/
theorem witness_OfferedMessagesSupersedeJoinOrDisplace :
    let seven := [0, 1, 2, 3, 4, 5, 6].map claimEntry
    let s1 := sending run [demandEntry 0] .waitingGap
    let s2 := sending run seven .waitingGap
    let s3 := sending run (seven ++ [claimEntry 7]) .waitingGap
    let s4 := sending run (seven ++ [answerEntry 7]) .waitingGap
    let m : Message := .claim 1 0
    let a : Message := .answer 30 8 0 .accepted 0
    clash.csu.state = .conflict ∧ run.csu.state ≠ .conflict ∧
    (s1.pbi.ok && s2.pbi.ok && s3.pbi.ok && s4.pbi.ok) = true ∧
    (demandEntry 0 ∈ s1.pbi.queue ∧ (Message.demand 1 2 3).supersedes (demandEntry 0).msg = true ∧
      s1.pbi.tx ≠ .sending 0) ∧
    ((∀ x ∈ s2.pbi.queue, m.supersedes x.msg = false) ∧ s2.pbi.queue.length = 7) ∧
    ((∀ x ∈ s3.pbi.queue, a.supersedes x.msg = false) ∧ s3.pbi.queue.length = 8 ∧ a.cls = 3 ∧ m.cls ≠ 3 ∧
      ∀ x ∈ s3.pbi.queue, x.msg.cls ≠ 3) ∧
    ((∀ x ∈ s4.pbi.queue, m.supersedes x.msg = false) ∧ s4.pbi.queue.length = 8 ∧ answerEntry 7 ∈ s4.pbi.queue ∧
      (answerEntry 7).msg.cls = 3 ∧ s4.pbi.tx ≠ .sending 7 ∧
      ∀ x ∈ s4.pbi.queue, x.msg.cls = 3 → x.order ≤ 7) := by decide +kernel

/-- No entry; an entry with one span; one with two, of either order; a new and a known epoch. -/
theorem witness_ReportsEnterThePeerTable :
    run.fromPeer 3 = true ∧ run.peer? 3 = none ∧
    ((withPeer run [⟨4, 0, 1⟩]).peer? 3).map PeerEntry.spans = some [⟨4, 0, 1⟩] ∧
    ((withPeer run [⟨4, 0, 1⟩, ⟨5, 0, 1⟩]).peer? 3).map PeerEntry.spans = some [⟨4, 0, 1⟩, ⟨5, 0, 1⟩] ∧
    epochEarlier 4 5 = true ∧ epochEarlier 4 (8191 : Half) = false ∧ epochEarlier (8191 : Half) 4 = true ∧
    run.fromPeer 16 = true ∧ run.csu.address ≤ (16#8).toNat := by decide

theorem witness_ClaimMessagesUpdateTheView :
    run.fromPeer 3 = true ∧ run.settled = true ∧ 9 ≤ (9#8).toNat ∧
    ((run.claimOf 8).own = .none ∧ (run.claimOf 8).holder = none) ∧
    ((claimed run 8 .waiting (some 3)).claimOf 8).holder = some 3 ∧
    (((claimed run 0 .waiting (some 7)).claimOf 0).own = .waiting ∧ beats 0 3 0 7 = true) ∧
    (((claimed run 0 .waiting (some 2)).claimOf 0).holder = some 2 ∧ (2 : Nat) ≠ 3 ∧ beats 0 3 0 2 = false) ∧
    ((claimed run 0 .settling none).claimOf 0).own = .settling := by decide

/-- A claim that no test uses, one that a test in WAIT PORT has kept, and one in use at the first and the second
conflict. -/
theorem witness_HeldClaimAnswersRivals :
    let s := claimed run 8 .held (some 5)
    let x := test .ir .drain 1 .notBegun
    let y := { x with conflicts := 1 }
    (s.fromPeer 3 = true ∧ s.fromPeer 7 = true ∧ s.settled = true ∧ (s.claimOf 8).own = .held ∧ s.tsq.running = none ∧
      beats (s.claimOf 8).ownStamp s.csu.address 0 7 = true ∧ beats (s.claimOf 8).ownStamp s.csu.address 0 3 = false) ∧
    (∀ t ∈ [x, y, { x with phase := .waitPort }], (testing t).fromPeer 3 = true ∧ (testing t).settled = true ∧
      ((testing t).claimOf 2).own = .held ∧ (2 : ResourceNo) = (testing t).binderOf 0 ∧
      beats ((testing t).claimOf 2).ownStamp 5 0 3 = false) ∧
    x.phase ≠ .waitPort ∧ x.conflicts = 0 ∧ 1 ≤ y.conflicts ∧ (testing y).runsAlone y :=
  ⟨by decide, by decide +kernel, by decide, rfl, by decide, runs_alone _ _ (by decide +kernel)⟩

theorem witness_FreedResourceIsClaimedAtOnce :
    let s := claimed run 2 .waiting (some 3)
    s.fromPeer 3 = true ∧ (s.claimOf 2).holder = some (3#8).toNat ∧ (s.claimOf 2).holder ≠ some (4#8).toNat ∧
      (s.claimOf 2).own ≠ .held ∧ (run.claimOf 2).holder = none := by decide

/-- A binder that settles for a take SENT, for a take GIVEN with an old and a young calibration and with a port that cannot
be connected, and for an ACCESS test; and the access bus for a take SENT, GIVEN and GIVEN with the port's isolation in
force. -/
theorem witness_SettledClaimBecomesHeld :
    let x := test .ir .claim 1 .notBegun
    let a := test .access .claim 1 .notBegun
    let early := settling (sent .ir .claim) 2
    let given := settling x 2
    let young := given.setMfe { given.mfe with age := 1023 }
    let taken := flagged given 0 fun r => { r with relayAccess := true }
    let wants (s : State) : State := s.setPvu { s.pvu with accessWanted := true }
    let forced := flagged (settling a 8) 0 fun r => { r with returnState := some .off }
    (run.claimOf 2).own ≠ .settling ∧
    (∀ s ∈ [early, given, young, taken], s.settled = true ∧ (s.claimOf 2).own = .settling ∧ s.binderOf 0 = 2 ∧
      s.pvu.accessWanted = false) ∧
    (early.tsq.running = some (sent .ir .claim) ∧ given.tsq.running = some x ∧ x.phase = .claim ∧ x.take = .given) ∧
    (given.frontEndFree 0 = true ∧ 1024 ≤ given.mfe.age ∧ given.mfe.activity = .idle ∧ given.mfe.source = .off) ∧
    (young.frontEndFree 0 = true ∧ young.mfe.age < 1024 ∧ x.entry.kind.steps[x.step - 1]? = some (.voltage, .tg)) ∧
    (taken.frontEndFree 0 = false ∧ taken.runsAlone x) ∧
    ((wants (settling a 2)).settled = true ∧ (wants (settling a 2)).pvu.accessWanted = true ∧
      ((settling a 2).claimOf accessBus).own = .none ∧ ((settling a 2).claimOf accessBus).holder = none) ∧
    (∀ s ∈ [settling (sent .access .claim) 8, settling a 8, forced], s.settled = true ∧
      (s.claimOf accessBus).own = .settling ∧ (s.claimOf 2).own = .held) ∧
    (((settling a 8).port 0).state = .inTest ∧ ((settling a 8).port 0).returnState = none ∧
      ((settling a 8).port 0).relayFrontEnd = false ∧ ∀ q, q ≠ 0 → ((settling a 8).port q).relayAccess = false) ∧
    (forced.port 0).returnState ≠ none ∧ forced.runsAlone a :=
  ⟨by decide, by decide +kernel, by decide, by decide +kernel, by decide +kernel,
    ⟨by decide +kernel, runs_alone _ _ (by decide +kernel)⟩, by decide +kernel, by decide +kernel, by decide +kernel,
    by decide, runs_alone _ _ (by decide +kernel)⟩

theorem witness_ClaimTimersAct :
    let held := claimed run 2 .held (some 5)
    let marked := held.setClaim 2 { held.claimOf 2 with markedWaiting := true }
    let waits := run.setClaim 2 { run.claimOf 2 with own := .waiting, holdOff := some 4 }
    (held.claimOf 2).own = .held ∧ (run.claimOf 2).own ≠ .held ∧ (marked.claimOf (binderResource 2)).own = .held ∧
      (marked.claimOf (binderResource 2)).markedWaiting = true ∧ (waits.claimOf (binderResource 2)).holdOff ≠ none ∧
      (waits.claimOf (binderResource 2)).own = .waiting ∧ (run.claimOf (binderResource 2)).holdOff = none := by decide

theorem witness_RequestsWaitAndStartByKind :
    let q (k : AuKind) : AuRequest := ⟨k, 0, [], 0, []⟩
    let s (a b c : Option AuRequest) : State := { run with au := ⟨some (q .powerShare), a, b, c⟩ }
    run.au = ⟨none, none, none, none⟩ ∧ (s none none none).au.inFlight = some (q .powerShare) ∧
      (s (some (q .portDivision)) none none).au.pendingPort = some (q .portDivision) ∧
      (s none (some (q .stationShare)) none).au.pendingPort = none ∧
      (s none none (some (q .powerShare))).au.pendingPower = some (q .powerShare) ∧ run.au.inFlight = none := by decide

/-- A division that nobody waits for any more, and one in time that grants port 1 three of four slots. -/
theorem witness_DivisionInTimeBuildsTheMap :
    let q : AuRequest := ⟨.portDivision, 7, [⟨1, 3, 1⟩], 4, [1]⟩
    let d : Division := ⟨7, [20, 21, 22, 23], [1]⟩
    let s := { (holding run 1).setUls { run.uls with division := some d } with au := ⟨some q, none, none, none⟩ }
    s.settled = true ∧ s.au.inFlight = some q ∧ q.kind = .portDivision ∧ s.uls.division = some d ∧
      d.reference = q.reference ∧ s.noneDraining ∧ s.poolOk = true ∧ s.uls.inFlight = [] ∧ d.order.Nodup ∧
      slotsOk d.usable = true ∧ s.eligible 1 = true ∧ q.allocationTo 1 ≤ s.held 1 ∧ run.uls.division = none := by
  unfold State.noneDraining; decide +kernel

theorem witness_SlotTakesTheOldestSegment :
    let e : RetransmitEntry := ⟨1, 0, 0, false, 1, [4]⟩
    let s := run.setUls { run.uls with retransmit := [{ e with port := 0 }, e] }
    s.uls.retransmit = [{ e with port := 0 }] ++ e :: [] ∧ e.port = 1 ∧ run.retransmits 1 = 0 ∧
      ((holding run 1).pq 1).queue = packet :: [] ∧ packet.ok = true ∧
      PacketRecord.ok { packet with remaining := 1, buffers := [[3, 3]] } = true ∧ (run.pq 1).queue = [] := by decide +kernel

theorem witness_StationSharePlacesTheWindow :
    let q : AuRequest := ⟨.stationShare, 65532, [⟨3, 10, 2⟩, ⟨5, 20, 3⟩], 124, [3, 5]⟩
    let s := { run.setUls { run.uls with lastCut := some 8191, shareRef := some 65532 } with au := ⟨some q, none, none, none⟩ }
    s.au.inFlight = some q ∧ q.kind = .stationShare ∧ s.csu.engine = some parts ∧ s.uls.lastCut = some 8191 ∧
      s.uls.shareRef = some q.reference ∧ run.uls.shareRef ≠ some q.reference := by decide

/-- A wrong check; the frame after the last marker at 500, 2000 and 2001 microseconds; each sync state; and with nothing else
due, status for the frame of the entries and for another, and a jump. -/
theorem witness_MarkerAdvancesTheFrame :
    let status : Vector Byte 32 := Vector.replicate 32 0
    let s := run.setUls { run.uls with f := 7, lastMarker := some 7 }
    let u (g : Half) : Uls := { run.uls with f := 8, shareEpoch := 1, sync := .sync, inFlight := [⟨1, 0, 0, false, 1, 9, g, [4]⟩] }
    (messageCheck (halfBytes 8 ++ status.toList) ≠ 0 ∧
    ¬ ((8 : Half) = s.uls.f ∧ s.uls.timerAdvanced = true) ∧ s.uls.lastMarker = some ((8 : Half) - 1) ∧
      run.uls.lastMarker ≠ some ((8 : Half) - 1) ∧ run.uls.sync = .nosync ∧ (synced run .lost).uls.sync = .lost ∧
      (synced run .resync).uls.sync = .resync ∧ (synced run .sync).uls.sync = .sync) ∧
    ((run.setUls (u 8)).nothingDueAt 9 ∧ (run.setUls (u 8)).nothingDueAt 10 ∧ (run.setUls (u 7)).nothingDueAt 9) ∧
    (∀ e ∈ (u 8).inFlight, (9 : Half) = e.frame + 1) ∧ (∀ e ∈ (u 7).inFlight, (9 : Half) ≠ e.frame + 1) ∧
      (10 : Half) ≠ (u 8).f + 1 :=
  ⟨by decide +kernel, ⟨nothing_due _ _ (by decide +kernel), nothing_due _ _ (by decide +kernel),
    nothing_due _ _ (by decide +kernel)⟩, by decide, by decide, by decide⟩

/-- Status for the frame of the entries, and for another; RUN and SYNC with and without an eligible port; and NOSYNC. -/
theorem witness_LateMarkerTakesTheStatus :
    let status : Vector Byte 32 := Vector.replicate 32 0
    let u : Uls := { run.uls with timerAdvanced := true, inFlight := [⟨1, 0, 0, false, 1, 9, 65535, [4]⟩] }
    let s := synced ((holding run 1).setUls u) .sync
    s.uls.timerAdvanced = true ∧ (∀ e ∈ s.uls.inFlight, s.uls.f = e.frame + 1) ∧
      (∀ e ∈ (s.setUls { s.uls with f := 1 }).uls.inFlight, (s.setUls { s.uls with f := 1 }).uls.f ≠ e.frame + 1) ∧
      s.csu.state = .run ∧ s.uls.sync = .sync ∧
      (after s (.frameMarker 0 status (messageCheck (halfBytes 0 ++ status.toList)) 900 ⟨0, flat 0, flat 0⟩)).eligible 1 =
        true ∧
      (∀ p, run.eligible p = false) ∧ run.uls.sync ≠ .sync := by decide +kernel

theorem witness_TimerExpiryCountsAMiss :
    let s := (synced run .sync).setUls { (synced run .sync).uls with miss := 2 }
    (2 ≤ s.uls.miss ∧ s.uls.sync = .sync ∧ (synced run .sync).uls.miss < 2 ∧ (synced run .resync).uls.sync = .resync ∧
      run.uls.sync = .nosync ∧ (synced run .lost).uls.sync = .lost) ∧ run.nothingDueAt (run.uls.f + 1) :=
  ⟨by decide, nothing_due _ _ (by decide +kernel)⟩

theorem witness_EpochStartTurnsTheWindows :
    let u : Uls := { run.uls with f := 65535, shareEpoch := 8190, pendingWindow := some ⟨8191, ⟨4, 20⟩⟩ }
    let s := run.setUls u
    s.csu.engine = some parts ∧ s.csu.state = .run ∧ s.peersOk = true ∧ s.uls.shareEpoch ≠ s.uls.f.toNat / 8 ∧
      s.uls.pendingWindow.map PendingWindow.epoch = some (s.uls.f.toNat / 8) ∧
      run.uls.shareEpoch = run.uls.f.toNat / 8 ∧ run.uls.pendingWindow = none := by decide +kernel

/-- Due at F mod 8 = 4, and not due at 3. -/
theorem witness_ShareCutRequestsTheShare :
    let s := synced (withPeer (run.setUls { run.uls with f := 4 }) []) .resync
    s.csu.engine = some parts ∧ s.peersOk = true ∧ s.csu.state = .run ∧ s.uls.sync = .resync ∧ 4 ≤ s.uls.f.toNat % 8 ∧
      s.uls.lastCut ≠ some (s.uls.f.toNat / 8) ∧ ¬ 4 ≤ (3#16).toNat % 8 := by decide +kernel

/-- Lengths 1 and 64, ports 0 and 12, a serving port with its link up, and one that does not serve. -/
theorem witness_DownstreamSegmentsAreDeliveredOrCounted :
    let full : List Byte := List.replicate 64 7
    full.length = (64#8).toNat ∧ ([7] : List Byte).length = (1#8).toNat ∧ (5#8).toNat = run.csu.address ∧
      12 ≤ (12#8).toNat ∧ (0 : PortNo).val = (0#8).toNat ∧ (run.port 0).state.serving = true ∧ (run.port 0).link = true ∧
      (run.port 2).state.serving = false ∧ messageCheck (0#8 :: 0 :: 64 :: full) ≠ 0 := by decide +kernel

/-- 1536 bytes fit and 1537 do not; a port not IN SERVICE; a pool with one buffer too few. -/
theorem witness_PacketsAreAdmittedOrDropped :
    let n (len : Nat) : Nat := (len + 63) / 64
    (run.port 2).state ≠ .inService ∧ (run.port 0).state = .inService ∧ 1536 < 1537 ∧ (run.part 0).limit < 0 + n 4097 ∧
      ¬ (run.part 0).limit < run.queued 0 + run.retransmits 0 + n 1536 ∧ n 1536 ≤ run.pqm.free ∧
      (run.takeBuffers 489).pqm.free < n 1536 := by decide +kernel

/-- Each state of a port with consistent records, and each flag that a table asks for. -/
theorem witness_PortRequestsFollowTheirTables :
    let flag (s : State) (f : PortRecord → PortRecord) : State := flagged s 0 f
    let forced := flag (inState run 0 .inTest) fun r => { r with returnState := some .off }
    let pending := flag (inState run 0 (.draining .test)) fun r => { r with shedPending := true }
    let waiting := flag (inState run 0 (.draining .shed)) fun r => { r with takeWaiting := true }
    (∀ s ∈ [inState run 0 .unfitted, pending, holding pending 0, waiting, holding waiting 0,
        atTier (inState run 0 (.draining .test)) 4, run, holding run 0, inState run 0 (.draining .test), inState run 0 (.draining .shed), inState run 0 .inTest,
        inState run 0 .isolated, inState run 0 .off, forced,
        flag (inState run 0 .inTest) fun r => { r with shedPending := true },
        flag (inState run 0 .isolated) fun r => { r with returnState := some .off },
        (inState run 0 .inTest).setLine 0 { (run.line 0) with fvdLevel := true }, atTier (inState run 0 .inTest) 4],
      s.portsOk = true) ∧
    1 ≤ (holding run 0).held 0 ∧ run.held 0 = 0 ∧ 1 ≤ (holding pending 0).held 0 ∧ pending.held 0 = 0 ∧
      1 ≤ (holding waiting 0).held 0 ∧ waiting.held 0 = 0 ∧ pending.pmg.tier ≠ 4 ∧ ((inState run 0 .isolated).port 0).returnState = some .inService ∧
      (forced.port 0).returnState = some .off ∧ ((inState run 0 (.draining .shed)).port 0).takeWaiting = false := by
  decide +kernel

theorem witness_TakesAreAnsweredByState :
    (∀ st ∈ [PortState.unfitted, .draining .test, .inTest, .draining .shed, .isolated, .off],
      (inState run 0 st).portsOk = true ∧ ((inState run 0 st).port 0).state = st) ∧
    (run.portsOk = true ∧ (run.port 0).state = .inService ∧ run.held 0 = 0) ∧
    (holding run 0).portsOk = true ∧ 1 ≤ (holding run 0).held 0 ∧ TestKind.cap ≠ .fv := by decide +kernel

theorem witness_DrainEndMovesThePort :
    let t := { test .fv .claim 1 .notBegun with take := .sent }
    let s := (inState run 0 (.draining .test)).setRunning (some t)
    run.settled = true ∧ (run.port 0).state.isDraining = false ∧
      ((inState run 0 (.draining .shed)).port 0).state = .draining .shed ∧
      ((inState run 0 (.draining .shed)).port 0).takeWaiting = false ∧ s.settled = true ∧
      (s.port 0).state = .draining .test ∧ s.tsq.running = some t ∧ t.entry.port = 0 ∧ t.phase = .claim ∧
      t.take = .sent := by decide

/-- A test in DRAIN: with a calibration that is due and with a young one, at a voltage step and at a source step, ACCESS
with its claims, and each with a port that cannot be connected. A SHED drain with a take waiting, while the binder is free
and while engine 3 holds it. -/
theorem witness_DrainEndMovesThePort_tests :
    let s := fun (x : RunningTest) => claimed (taking x (.draining .test)) 2 .held (some 5)
    let fv := sent .fv .drain
    let cap := sent .cap .drain
    let a := sent .access .drain
    let young := (s fv).setMfe { (s fv).mfe with age := 3 }
    let both := claimed (s a) accessBus .held (some 5)
    let other := flagged (s fv) 1 fun r => { r with relayFrontEnd := true }
    (∀ x ∈ [fv, cap, a], (s x).settled = true ∧ ((s x).port 0).state = .draining .test ∧
      (s x).tsq.running = some x ∧ x.entry.port = 0 ∧ x.phase = .drain) ∧
    ((∀ q, q ≠ 0 → ((s fv).port q).relayFrontEnd = false) ∧ ((s fv).port 0).relayAccess = false ∧
      1024 ≤ (s fv).mfe.age ∧ (s fv).mfe.activity = .idle ∧ (s fv).mfe.source = .off) ∧
    (young.settled = true ∧ young.tsq.running = some fv ∧ young.mfe.age < 1024 ∧
      fv.entry.kind.steps[fv.step - 1]? = some (.voltage, .tg) ∧ 1 ≤ fv.step) ∧
    (cap.entry.kind.steps[cap.step - 1]? = some (.charge, .tr) ∧ ((s cap).port 0).returnState = none ∧
      ((s cap).line 0).fvdLevel = false ∧ (s cap).pmg.tier.val < 3 ∧
      ((s cap).claimOf ((s cap).binderOf 0)).own = .held) ∧
    (both.settled = true ∧ both.tsq.running = some a ∧ (both.port 0).returnState = none ∧
      (both.port 0).relayFrontEnd = false ∧ (∀ q, q ≠ 0 → (both.port q).relayAccess = false) ∧
      (both.claimOf (both.binderOf 0)).own = .held ∧ (both.claimOf accessBus).own = .held) ∧
    ((other.port 1).relayFrontEnd = true ∧ other.runsAlone fv) ∧
    (((s a).claimOf accessBus).own ≠ .held ∧ (s a).runsAlone a) ∧
    ∀ w ∈ [taking { sent .fv .waitPort with take := .waiting } (.draining .shed),
        claimed (taking { sent .fv .waitPort with take := .waiting } (.draining .shed)) 2 .none (some 3)],
      w.settled = true ∧ (w.port 0).state = .draining .shed ∧ (w.port 0).takeWaiting = true ∧
        w.tsq.running = some { sent .fv .waitPort with take := .waiting } ∧ ∀ r, (w.claimOf r).own = .none :=
  ⟨by decide +kernel, by decide +kernel, by decide +kernel, by decide +kernel, by decide +kernel,
    ⟨by decide +kernel, runs_alone _ _ (by decide +kernel)⟩, ⟨by decide +kernel, runs_alone _ _ (by decide +kernel)⟩,
    by decide +kernel⟩

/-- A port that does not serve and a link that changes, and chosen edges: without priority, latched and queued already,
and with room in the queue while a test runs. -/
theorem witness_EdgesLatchAndAsk :
    let s := watched (testing (test .fv .claim 1 .notBegun)) 1 .gflt .rising
    run.settled = true ∧ (run.port 2).state.serving = false ∧ (run.port 0).state.serving = true ∧
      (run.port 0).link ≠ false ∧ (run.cell 0 .link).mode = .none ∧ (run.cell 0 .gflt).mode = .none ∧
      (s.cell 1 .gflt).mode = .rising ∧ (s.line 1).gfltLevel = false ∧
      ((s.setLine 1 { s.line 1 with gfltLevel := true }).line 1).gfltLevel = true ∧ 1 ≤ (s.cell 1 .gflt).priority ∧
      s.csu.state = .run ∧ s.settled = true ∧ s.leu.leaveDue = false ∧ s.tsq.selectDue = false ∧ s.tsq.running ≠ none ∧
      (s.cell 1 .gflt).latched = false ∧
      (let x := { s.cell 1 .gflt with latched := true, request := .queued }
       ((s.setCell 1 .gflt x).cell 1 .gflt).request ≠ .idle) := by decide +kernel

/-- Each answer to the request of port 1's GFLT cell, a displacement among them; a level cell that is ready; and a cell in
WAIT END and one in WAIT ROOM at their notices. -/
theorem witness_EdgesLatchAndAsk_answers :
    let s := watched (testing (test .fv .claim 1 .notBegun)) 1 .gflt .rising
    let auto (n pr : Nat) (p : PortNo) (k : TestKind) : QueueEntry := ⟨0, 0, p, k, pr, 0, 0, .cell p .fvd, n⟩
    let filled (pr : Nat) : State := s.setTsq { s.tsq with queue := (List.range 16).map fun n => auto n pr 0 .fv }
    let pending := watched (s.setLine 1 { s.line 1 with gfltLevel := true }) 1 .gflt .levelHigh
    let waits (s : State) (r : RequestState) : State := s.setCell 1 .gflt { s.cell 1 .gflt with request := r }
    let room := (waits s .waitRoom).setLeu { (waits s .waitRoom).leu with leaveDue := true }
    ((s.setMfe { s.mfe with failed := true }).answerTo 1 .gflt = .refused ∧
      (s.setRunning (some { test .ir .claim 1 .notBegun with entry := auto 0 3 1 .ir })).answerTo 1 .gflt = .active ∧
      (s.setTsq { s.tsq with queue := [auto 0 3 1 .ir] }).answerTo 1 .gflt = .present ∧ s.answerTo 1 .gflt = .queued ∧
      (filled 2).answerTo 1 .gflt = .queued ∧ (filled 3).answerTo 1 .gflt = .full) ∧
    (s.tsq.queue.length < 16 ∧ 16 ≤ (filled 2).tsq.queue.length ∧
      (filled 2).tsq.queue = ((List.range 15).map fun n => auto n 2 0 .fv) ++ auto 15 2 0 .fv :: []) ∧
    ((pending.cell 1 .gflt).mode.isLevel = true ∧ pending.cellPending 1 .gflt = true ∧ pending.csu.state = .run ∧
      (pending.cell 1 .gflt).rearm = 4096 ∧ pending.answerTo 1 .gflt = .queued) ∧
    (TestKind.ir.condition? = some .gflt ∧ (s.cell 1 .gflt).mode.isEdge = true ∧
      ((waits s .waitEnd).cell 1 .gflt).request = .waitEnd) ∧
    (room.leu.leaveDue = true ∧ (room.cell 1 .gflt).request = .waitRoom ∧ (room.cell 1 .gflt).priority = 3 ∧
      (∀ q d, (room.cell q d).request = .waitRoom → q = 1 ∧ d = .gflt) ∧ room.answerTo 1 .gflt = .queued) := by
  refine ⟨by decide +kernel, by decide +kernel, by decide +kernel, by decide +kernel, by decide +kernel, by decide +kernel,
    by decide +kernel, fun q d => ?_, by decide +kernel⟩
  cases d <;> revert q <;> decide +kernel

theorem witness_ForeignVoltageIsolates :
    let hit := run.setLine 0 { run.line 0 with fvdLevel := true }
    (∀ s ∈ [run, hit, inState run 0 .off, inState run 0 (.draining .shed), inState run 0 .isolated,
        flagged (inState run 0 .inTest) 0 fun r => { r with returnState := some .off }],
      s.settled = true ∧ s.portsOk = true ∧ (s.cell 0 .fvd).mode = .none) ∧
    (hit.line 0).fvdLevel = true ∧ (run.line 0).fvdLevel = false ∧ run.csu.state ≠ .unconfigured ∧
    bare.csu.state = .unconfigured ∧ (run.port 0).state ≠ .isolated ∧
    ((inState run 0 .isolated).port 0).returnState = some .inService ∧ (run.cell 0 .link).mode.isLevel = false := by
  decide +kernel

/-- A test's port IN TEST with a step that needs no source, with one that does, and for ACCESS; and a port that drains for
a test, or for SHED with a take waiting, of another kind than FV and of kind FV. -/
theorem witness_ForeignVoltageIsolates_tests :
    let plain := test .ir .step 1 .integrating
    let sourced := test .ir .step 5 .integrating
    let access := test .access .connected 1 .notBegun
    let other := sent .ir .claim
    let fv := sent .fv .claim
    (∀ x ∈ [plain, sourced, access], (testing x).settled = true ∧ (testing x).portsOk = true ∧
      ((testing x).line 0).fvdLevel = false ∧ ((testing x).port 0).returnState = none ∧ 1 ≤ x.step) ∧
    (plain.entry.kind.steps[plain.step - 1]? = some (.voltage, .tg) ∧
      sourced.entry.kind.steps[sourced.step - 1]? = some (.resistance, .tg)) ∧
    ((testing sourced).runsAlone sourced ∧ (testing access).runsAlone access) ∧
    (∀ st ∈ [PortState.draining .test, .draining .shed], ∀ x ∈ [other, fv], (taking x st).settled = true ∧
      (taking x st).portsOk = true ∧ ((taking x st).line 0).fvdLevel = false ∧ (taking x st).pmg.tier.val < 3 ∧
      ((taking x st).cell 0 .fvd).mode = .none) ∧
    (taking other (.draining .test)).runsAlone other ∧ (taking other (.draining .shed)).runsAlone other :=
  ⟨by decide +kernel, by decide, ⟨runs_alone _ _ (by decide +kernel), runs_alone _ _ (by decide +kernel)⟩,
    by decide +kernel, runs_alone _ _ (by decide +kernel), runs_alone _ _ (by decide +kernel)⟩

theorem witness_EventsAreShownAndCleared :
    run.fromStation 30 = true ∧ bare.fromStation 30 = true ∧ bare.csu.state = .unconfigured ∧
      run.csu.state ≠ .unconfigured ∧ ¬ (12#8).toNat < 12 ∧ (3 : Byte) ≠ run.leu.report ∧ (0 : Byte) = run.leu.report ∧
      ∀ x ∈ [((11 : Byte), (2 : Byte))], x.1.toNat < 12 ∧ x.2.toNat < 3 := by
  refine ⟨by decide +kernel, by decide +kernel, by decide +kernel, by decide +kernel, by decide, by decide +kernel,
    by decide +kernel, ?_⟩
  simp

/-- Each refusal, and an order that joins the queue or takes an automatic entry over while another test runs. -/
theorem witness_TestOrdersAreAnsweredAndQueued :
    let s := testing (test .fv .claim 1 .notBegun)
    let auto : QueueEntry := ⟨0, 0, 1, .ir, 3, 0, 0, .cell 1 .gflt, 0⟩
    let full := s.setTsq { s.tsq with queue := List.replicate 16 auto }
    let one := s.setTsq { s.tsq with queue := [auto], nextMade := 1 }
    s.fromStation 30 = true ∧ bare.csu.state = .unconfigured ∧ clash.csu.state = .conflict ∧ s.csu.state = .run ∧
      5 < (6#8).toNat ∧ (5#8).toNat = TestKind.access.code ∧ 12 ≤ (12#8).toNat ∧ (s.port 2).state = .unfitted ∧
      (s.setMfe { s.mfe with failed := true }).mfe.failed = true ∧ 3 ≤ (atTier s 3).pmg.tier.val ∧
      s.pmg.tier.val < 3 ∧ ((inState s 1 .isolated).port 1).state = .isolated ∧ s.active 0 .fv = true ∧
      s.active 1 .ir = false ∧ full.queued? 1 .cap = none ∧ full.tsq.queue.length = 16 ∧ s.queued? 1 .ir = none ∧
      s.settled = true ∧ s.tsq.running ≠ none ∧ one.queued? 1 .ir = some auto ∧ one.settled = true := by decide +kernel

/-- The test of station 30 with tag 7 in the queue, running alone, and nowhere. -/
theorem witness_CancelEndsTheMatchingTest :
    let x := test .fv .claim 1 .notBegun
    let s := testing x
    let q := run.setTsq { run.tsq with queue := [entry .fv] }
    run.fromStation 30 = true ∧ run.settled = true ∧ bare.csu.state = .unconfigured ∧ run.csu.state ≠ .unconfigured ∧
      run.tsq.running = none ∧ q.noCellWaits ∧ q.tsq.queue = [] ++ entry .fv :: [] ∧
      (entry .fv).requester = (30#8).toNat ∧ (entry .fv).tag = 7 ∧ s.runsAlone x ∧ x.entry.requester = (30#8).toNat :=
  ⟨by decide, by decide, by decide, by decide, by decide, none_waits _ (by decide +kernel), by decide, by decide,
    by decide, ⟨by decide, by decide, by decide, by decide, none_waits _ (by decide +kernel), by decide⟩, by decide⟩

/-- The test of station 30 with tag 7 suspended, below another test. -/
theorem witness_CancelEndsTheMatchingTest_suspended :
    let c : Context := ⟨test .fv .claim 1 .notBegun, true⟩
    let d : Context := ⟨{ test .cap .claim 1 .notBegun with entry := { entry .cap with port := 1, tag := 8 } }, true⟩
    let s := (inState (inState run 0 .inTest) 1 .inTest).setTsq { run.tsq with stack := [d, c] }
    (s.fromStation 30 = true ∧ s.settled = true ∧ s.csu.state ≠ .unconfigured ∧ s.testsOwnPorts = true ∧
      s.tsq.queue = [] ∧ s.tsq.running = none ∧ s.tsq.stack = [d] ++ c :: [] ∧ c.test.entry.requester = (30#8).toNat ∧
      c.test.entry.tag = 7 ∧ d.test.entry.tag ≠ 7 ∧ (s.cell 0 .link).mode.isLevel = false) ∧ s.noCellWaits :=
  ⟨by decide +kernel, none_waits _ (by decide +kernel)⟩

/-- A start with a port in service that holds a packet, and a resume of a suspended test whose port is IN TEST. -/
theorem witness_SelectionStartsOrResumes :
    let s := (holding run 0).setTsq { run.tsq with queue := [entry .fv] }
    let c : Context := ⟨test .fv .claim 1 .notBegun, true⟩
    let r := (inState run 0 .inTest).setTsq { run.tsq with stack := [c] }
    (s.settled = true ∧ s.csu.state = .run ∧ s.noCellWaits ∧ s.tsq.running = none ∧ s.tsq.stack = [] ∧
      s.tsq.queue = [] ++ entry .fv :: [] ∧ ¬ s.skips (entry .fv) ∧ s.nothingClaimed ∧ (s.port 0).state = .inService ∧
      1 ≤ s.held 0) ∧
    (r.settled = true ∧ r.noCellWaits ∧ r.tsq.running = none ∧ r.tsq.stack = c :: [] ∧ r.tsq.queue = [] ∧
      r.nothingClaimed ∧ (r.port 0).returnState = none) ∧
    (atTier s 3).skips (entry .fv) ∧ (testing (test .fv .claim 1 .notBegun)).tsq.running ≠ none :=
  ⟨⟨by decide, by decide, none_waits _ (by decide +kernel), by decide, by decide, by decide,
      by unfold State.skips; decide, by unfold State.nothingClaimed; decide, by decide, by decide +kernel⟩,
    ⟨by decide, none_waits _ (by decide +kernel), by decide, by decide, by decide,
      by unfold State.nothingClaimed; decide, by decide⟩,
    by unfold State.skips; decide, by decide⟩

/-- A head of higher priority for port 1 while a test of port 0 waits in CLAIM, with one binder HELD by both ports and with
two; a test in a step, a full stack, and a queue of no higher priority. -/
theorem witness_SelectionStartsOrResumes_preemption :
    let x := test .ir .claim 1 .notBegun
    let e : QueueEntry := { entry .fv with port := 1, priority := 6, made := 1 }
    let ready (s : State) : State := (holding s 1).setTsq { s.tsq with queue := [e], nextMade := 2 }
    let s := ready (testing x)
    let two := ready ((testing x).setCsu { run.csu with ports := tput run.csu.ports 1 (some { part with binder := 3 }) })
    (∀ u ∈ [s, two], u.settled = true ∧ u.csu.state = .run ∧ u.tsq.running = some x ∧ u.tsq.stack.length < 3) ∧
    (s.noCellWaits ∧ two.noCellWaits ∧ s.headIs e ∧ two.headIs e ∧ x.entry.priority < e.priority) ∧
    ((s.claimOf (s.binderOf 0)).own = .held ∧ s.binderOf 1 = s.binderOf 0 ∧ two.binderOf 1 ≠ two.binderOf 0 ∧
      (two.claimOf (two.binderOf 1)).own ≠ .held) ∧
    ((test .ir .step 1 .integrating).phase ≠ .claim ∧ 3 ≤ (List.replicate 3 (⟨x, true⟩ : Context)).length ∧
      (entry .fv).priority ≤ x.entry.priority) :=
  ⟨by decide +kernel,
    ⟨none_waits _ (by decide +kernel), none_waits _ (by decide +kernel),
      ⟨⟨[], [], rfl, by simp, by unfold State.skips; decide +kernel⟩, by decide +kernel, by decide +kernel,
        by decide +kernel⟩,
      ⟨⟨[], [], rfl, by simp, by unfold State.skips; decide +kernel⟩, by decide +kernel, by decide +kernel,
        by decide +kernel⟩, by decide⟩,
    by decide +kernel, by decide⟩

/-- A test alone in a phase: running in its port's test state, without waiting cells. -/
theorem alone (k : TestKind) (ph : Phase) (n : Nat) (st : StepStage) :
    (testing (test k ph n st)).runsAlone (test k ph n st) :=
  ⟨rfl, rfl, rfl, rfl, fun p c => none_waits (testing (test .fv .claim 1 .notBegun)) (by decide +kernel) p c, rfl⟩

theorem witness_TestsEndAtTheirLimits :
    (testing (test .ir .claim 1 .notBegun)).runsAlone (test .ir .claim 1 .notBegun) ∧
    (testing (test .access .connected 1 .notBegun)).runsAlone (test .access .connected 1 .notBegun) ∧
    run.settled = true ∧ run.tsq.running = none := ⟨alone _ _ _ _, alone _ _ _ _, by decide, by decide⟩

/-- A good attempt with means of 200 and 150, one of 201, and failure counts 0 and 1. -/
theorem witness_CalibrationAttemptsAreJudged :
    let s := testing (test .ir .calibrate 1 .notBegun)
    let c (n : Nat) : State := s.setMfe { s.mfe with activity := .calibrating 1 3, failures := n }
    run.settled = true ∧ (c 0).settled = true ∧ (c 0).mfe.activity = .calibrating 1 3 ∧
      ((rawMean (flat 200)).natAbs ≤ 200 ∧ (rawMean (flat 200) - rawMean (flat 150)).natAbs ≤ 50) ∧
      ¬ (rawMean (flat 201)).natAbs ≤ 200 ∧ (c 0).tsq.running = some (test .ir .calibrate 1 .notBegun) ∧
      TestKind.ir.stepAt 1 = some (.voltage, .tg) ∧ (c 0).mfe.failures = 0 ∧ 1 ≤ (c 1).mfe.failures := by decide +kernel

/-- A step that settles, each charge-timer state, and integrating steps: a voltage step before another and before the
self-check, the third step of IR above the FV limit, the last of FV, a resistance step without a source, in force and with a
head of higher priority, and a self-check below, at and above its bounds, at the first and the second failure. -/
theorem witness_StepsRunTheirProgram :
    let v (k : TestKind) (n : Nat) : State := measuring k n .measuring
    let high : RunningTest := { test .ir .step 3 .integrating with values := [⟨1001, false, false, false⟩] }
    let ok := measuring .ir 4 .selfCheck
    let forced := flagged (v .ir 5) 0 fun r => { r with returnState := some .off }
    ((testing (test .ir .step 1 (.settling 0))).settled = true ∧ run.tsq.running = none ∧
      ((v .cap 1).setMfe { Mfe.powerOn with charge := .discharging }).mfe.charge = .discharging ∧
      ((v .cap 1).setMfe { Mfe.powerOn with charge := .charging }).mfe.charge = .charging ∧
      run.mfe.charge ≠ .discharging ∧ run.mfe.charge ≠ .charging) ∧
    (∀ s ∈ [v .ir 1, v .ir 3, v .fv 3, v .ir 5, v .cap 1, forced, atTier (v .ir 5) 3], s.settled = true ∧
      s.mfe.activity = .measuring ∧ s.tsq.queue = []) ∧
    (TestKind.ir.steps[1]? = some (.voltage, .rg) ∧ TestKind.ir.steps[3]? = some (.selfCheck, .tr) ∧
      TestKind.fv.steps[3]? = none ∧ TestKind.ir.steps[5]? = some (.resistance, .rg)) ∧
    (∃ y ∈ high.values, ok.engine.fvLimit < y.value.natAbs) ∧
    ((v .ir 5).sourceAllowed = true ∧ (atTier (v .ir 5) 3).sourceAllowed = false ∧ (forced.port 0).returnState ≠ none) ∧
    (ok.settled = true ∧ ok.mfe.activity = .selfCheck ∧ offsetMean (flat 4949) ok.mfe.checkOffset < 4950 ∧
      5050 < offsetMean (flat 5051) ok.mfe.checkOffset ∧ 4950 ≤ offsetMean (flat 4950) ok.mfe.checkOffset ∧
      offsetMean (flat 5050) ok.mfe.checkOffset ≤ 5050 ∧ ok.mfe.failures = 0 ∧
      1 ≤ (ok.setMfe { ok.mfe with failures := 1 }).mfe.failures ∧ (ok.port 0).returnState = none ∧
      ok.sourceAllowed = true) := by
  refine ⟨?_, ?_, ?_, ?_, ?_, ?_⟩ <;> decide +kernel

/-- At the completion of a step, a head of higher priority for another port; and the values of every kind of test. -/
theorem witness_StepsRunTheirProgram_preemption :
    let e : QueueEntry := { entry .fv with port := 1, priority := 6, made := 1 }
    let s := (holding (measuring .ir 1 .measuring) 1).setTsq
      { (measuring .ir 1 .measuring).tsq with queue := [e], nextMade := 2 }
    (s.settled = true ∧ s.csu.state = .run ∧ s.tsq.stack.length < 3 ∧ (entry .ir).priority < e.priority) ∧
      s.noCellWaits ∧ s.headIs e :=
  ⟨by decide +kernel, none_waits _ (by decide +kernel),
    ⟨[], [], rfl, by simp, by unfold State.skips; decide +kernel⟩, by decide +kernel, by decide +kernel, by decide +kernel⟩

theorem witness_StepsRunTheirProgram_alone (k : TestKind) (n : Nat) (a : Activity) :
    (measuring k n a).runsAlone (test k .step n .integrating) ∧ (measuring k n a).mfe.activity = a :=
  ⟨⟨rfl, rfl, rfl, rfl, fun p c => none_waits (testing (test .fv .claim 1 .notBegun)) (by decide +kernel) p c, rfl⟩, rfl⟩

theorem witness_MeasurementsRoundAsStated :
    (∀ x ∈ (flat 32000).toList, (-32000 : Int) ≤ x ∧ x ≤ 32000) ∧ (flat (-1)).toList.sum < 0 ∧
      0 ≤ (flat 0).toList.sum := by decide +kernel

theorem witness_PowerShareChoosesAPrefix :
    let q : AuRequest := ⟨.powerShare, 4, [⟨5, 40, 1⟩], 20, [5]⟩
    let s := { run.setPmg { run.pmg with powerRef := some (4, .standard) } with au := ⟨some q, none, none, none⟩ }
    (s.settled = true ∧ s.au.inFlight = some q ∧ q.kind = .powerShare ∧
      s.pmg.powerRef = some (q.reference, .standard) ∧ run.pmg.powerRef = none ∧
      ((s.classUpTo .standard 0).map fun x => (s.part x).pServ).sum ≤ q.allocationTo 5 ∧
      ¬ ((s.classUpTo .standard 1).map fun x => (s.part x).pServ).sum ≤ q.allocationTo 5) ∧ s.noTests :=
  ⟨by decide +kernel, no_tests _ (by decide +kernel) (none_waits _ (by decide +kernel))⟩

/-- Each level of MAINS, windows with and without samples, each plain tier, and an entry to tier 3 and to tier 4 with a test
that runs alone and with none. -/
theorem witness_PowerFollowsMainsAndVoltage :
    let low := run.setPmg { run.pmg with pin := false, mains := .absent }
    let old := run.setPmg { run.pmg with powerEpoch := 3, samples := [480], lastMean := some 480 }
    let x := test .ir .claim 1 .notBegun
    let weak (v : Nat) (s : State) : State := s.setPmg { s.pmg with tier := 1, lastMean := some v }
    (run.csu.engine = some parts ∧ run.pmg.pin = true ∧ low.pmg.pin = false ∧ low.pmg.mains = .absent ∧
      run.pmg.lastMean = none ∧ old.pmg.lastMean = some 480 ∧ run.csu.state = .run ∧ bare.csu.state ≠ .run ∧
      run.pmg.powerEpoch = run.uls.f.toNat / 64 ∧ old.pmg.powerEpoch ≠ old.uls.f.toNat / 64 ∧ run.pmg.samples = [] ∧
      old.pmg.samples ≠ [] ∧ old.settled = true ∧ old.pmg.mains = .present ∧ low.pmg.mains ≠ .present ∧
      State.reset.csu.engine = none ∧ State.reset.pmg.pin = true) ∧
    ([500, 450, 400, 399].map (tierOf parts) = [1, 2, 3, 4] ∧ [520, 470, 420, 419].map (marginTierOf parts) = [1, 2, 3, 5]) ∧
    ((∀ v ∈ [400, 399], 3 ≤ (after (weak v (testing x)) .mainsFall).pmg.tier.val) ∧ (weak 400 run).pmg.tier.val < 3 ∧
      (after (weak 399 run) .mainsFall).pmg.tier = 4) ∧
    ((weak 400 (testing x)).runsAlone x ∧ (weak 399 (testing x)).runsAlone x) ∧
    (run.noTests ∧ low.noTests ∧ (weak 399 run).noTests) ∧ ∀ p, (run.cell p .link).mode.isLevel = false :=
  ⟨by decide, by decide, by decide +kernel, ⟨runs_alone _ _ (by decide +kernel), runs_alone _ _ (by decide +kernel)⟩,
    ⟨no_tests _ (by decide +kernel) (none_waits _ (by decide +kernel)),
      no_tests _ (by decide +kernel) (none_waits _ (by decide +kernel)),
      no_tests _ (by decide +kernel) (none_waits _ (by decide +kernel))⟩, by decide +kernel⟩

/-- Due at F mod 64 = 16 and not at 15, at every tier, with a budget that carries all, some and none of the wants. -/
theorem witness_EvaluationDecidesByTier :
    let s (b : Nat) : State :=
      let r := atTier (withPeer (run.setUls { run.uls with f := 16 }) []) 1
      r.setCsu { r.csu with engine := some { parts with b1 := b } }
    (s 200).peersOk = true ∧ (s 200).csu.state = .run ∧ 16 ≤ (s 200).uls.f.toNat % 64 ∧
      (s 200).pmg.lastEvaluation ≠ some 0 ∧ ¬ 16 ≤ (15#16).toNat % 64 ∧ ((s 200).port 0).state ≠ .unfitted ∧
      ((s 200).port 2).state = .unfitted ∧ (s 200).pmg.tier = 1 ∧ (s 200).pmg.mains ≠ .returned ∧
      ((s 200).totalWant .essential, (s 200).totalWant .standard, (s 200).totalWant .deferrable) = (15, 60, 30) ∧
      1 ≤ (s 200).want .standard ∧ (s 200).want .deferrable = 0 ∧ 60 ≤ 200 - 15 ∧ 30 ≤ 200 - 15 - 60 ∧
      100 - 15 - 60 < 30 ∧ 40 - 15 < 60 := by decide +kernel

/-- No test is there; ports in service with and without packets, and OFF, ISOLATED and DRAINING for SHED, with a restore
counter of 0 and of 1. -/
theorem witness_EvaluationDecidesByTier_ports :
    let s := run.setUls { run.uls with f := 16 }
    let counted := s.setPmg { s.pmg with restore := Vector.replicate 12 1 }
    s.noTests ∧ (inState s 0 .off).noTests ∧ (inState counted 0 .isolated).noTests ∧
      (holding (inState counted 0 (.draining .shed)) 0).noTests ∧ (holding s 0).noTests ∧
      s.restoreOf 0 = 0 ∧ 1 ≤ counted.restoreOf 0 :=
  ⟨no_tests _ (by decide +kernel) (none_waits _ (by decide +kernel)),
    no_tests _ (by decide +kernel) (none_waits _ (by decide +kernel)),
    no_tests _ (by decide +kernel) (none_waits _ (by decide +kernel)),
    no_tests _ (by decide +kernel) (none_waits _ (by decide +kernel)),
    no_tests _ (by decide +kernel) (none_waits _ (by decide +kernel)), by decide, by decide⟩

/-- A good and a bad engine part, a port part at its bounds, and images that stay open or become complete. -/
theorem witness_ConfigureStoresThePart :
    let e : EngineFields := ⟨4095, 0, 17, 1000, 500, 19, 10, 500, 450, 400, 200, 200, 5, 10, 3⟩
    (run.fromStation 30 = true ∧ State.reset.csu.state = .unconfigured ∧ run.csu.state ≠ .unconfigured) ∧
    (e.vb.toNat < e.va.toNat ∧ e.vc.toNat < e.vb.toNat ∧ e.b2.toNat ≤ e.b1.toNat ∧ e.fitted.toNat < 4096) ∧
    ¬ (4096#16).toNat < 4096 ∧ ((11#8).toNat = (11 : PortNo).val ∧ (7#8).toNat = (7 : BinderNo).val ∧
      (2#8).toNat = PortClass.deferrable.code ∧ senseModeOf 5 = some .both ∧ 12 ≤ (12#8).toNat ∧ 8 ≤ (8#8).toNat ∧
      3 ≤ (3#8).toNat ∧ 6 ≤ (6#8).toNat) ∧
    (let csu := run.csu
     csu.engine = some parts ∧
       (∀ p : PortNo, parts.fitted.getLsbD p.val = true → (tget csu.ports p).isSome = true) ∧
       ¬ (∀ p : PortNo, parts.fitted.getLsbD p.val = true → (tget State.reset.csu.ports p).isSome = true)) ∧
    (State.reset.settled = true ∧ State.reset.unfittedOk = true ∧
      (∀ p : PortNo, (State.reset.cell p .link).mode.isLevel = false ∧ (State.reset.cell p .fvd).mode.isLevel = false ∧
        (State.reset.cell p .gflt).mode.isLevel = false) ∧
      ∀ p, ∀ x ∈ tget run.csu.ports p, x.link.mode.isLevel = false ∧ x.fvd.mode.isLevel = false ∧
        x.gflt.mode.isLevel = false) := by decide +kernel

/-- A complete image without a level cell, with fitted and unfitted ports; an empty image; and what is released. -/
theorem witness_RestartReinitialises :
    (run.fromStation 1 = true ∧ run.fromStation 31 = true) ∧
    (run.csu.engine = some parts ∧ ∀ p : PortNo, parts.fitted.getLsbD p.val = true → (tget run.csu.ports p).isSome = true) ∧
    State.reset.csu.engine = none ∧ State.reset.pbi.queue = [] ∧ State.reset.pbi.tx = .idle ∧
      State.reset.claimed.length ≤ 7 ∧ run.pbi.queue = [] ∧ run.pbi.tx = .idle ∧
      (claimed run 2 .held (some 5)).claimed = [2] ∧
    (∀ p, ∀ x ∈ tget run.csu.ports p, x.link.mode.isLevel = false ∧ x.fvd.mode.isLevel = false ∧
      x.gflt.mode.isLevel = false) ∧
    (∀ p, (run.cell p .link).mode.isLevel = false ∧ (run.cell p .fvd).mode.isLevel = false ∧
      (run.cell p .gflt).mode.isLevel = false) ∧
    parts.fitted.getLsbD 0 = true ∧ parts.fitted.getLsbD 2 = false ∧ tget run.csu.ports 0 = some part := by decide +kernel

/-- A log entry and an index that names none, the bounds of the indices and of the selectors. -/
theorem witness_StatusQueriesAreAnswered :
    let r : ResultRecord := (test .fv .claim 1 .notBegun |> fun t => run.resultOf t (some .busy))
    let s := run.setTsq { run.tsq with log := [(256, r)] }
    s.fromStation 30 = true ∧ bare.csu.state = .unconfigured ∧ s.csu.state ≠ .unconfigured ∧ 7 ≤ (7#8).toNat ∧
      12 ≤ (12#8).toNat ∧ s.withinLimits = true ∧ (256, r) ∈ s.tsq.log ∧ (256#16).extractLsb' 0 8 = (0 : Byte) ∧
      (∀ x ∈ s.tsq.log, x.1.extractLsb' 0 8 ≠ (255 : Byte)) ∧ 1 ≤ (1#8).toNat ∧ (16#8).toNat ≤ 16 ∧
      16 < (17#8).toNat ∧ s.peer? 16 = none ∧ ((withPeer s []).peer? 3).isSome = true := by decide +kernel

end Sys2Proof.Tests
end

section
/-!
The end of a message (R13 to R17): when each of the conditions of R14 holds, the command that a request or a report spells
(R185), and where a valid message goes.
-/
namespace Sys2Proof

open Machine

/-! ### The conditions of R14 -/

theorem RxMessage.checkOk_iff (m : RxMessage) : m.checkOk = true ↔ m.checkRight :=
  decide_eq_true_iff

theorem RxMessage.kindOk_iff (m : RxMessage) : m.kindOk = true ↔ m.kindRight := by
  have configure : m.kind = 13 ↔ m.kind.toNat = 13 := by bv_omega
  simp only [RxMessage.kindOk, RxMessage.kindRight, configure, Bool.and_eq_true, Bool.or_eq_true, decide_eq_true_eq,
    and_assoc, ne_eq, ← imp_iff_not_or]
  rfl

/-- The form byte of a CONFIGURE is one of the two forms. -/
theorem RxMessage.form_of_kindRight {m : RxMessage} (hk : m.kindRight) (h : m.kind.toNat = 13) :
    byteAt m.payload 2 = 1 ∨ byteAt m.payload 2 = 2 := by
  obtain ⟨-, -, form⟩ := hk
  have two : ∀ b, m.payload[2]? = some b → byteAt m.payload 2 = b := fun b e => by
    simp only [byteAt, List.getD_eq_getElem?_getD, e, Option.getD_some]
  exact (form (by bv_omega)).imp (two 1) (two 2)

theorem RxMessage.lengthOk_iff {m : RxMessage} (hk : m.kindRight) : m.lengthOk = true ↔ m.lengthRight := by
  have form := form_of_kindRight hk
  obtain ⟨low, high, -⟩ := hk
  have code : ∀ b : Byte, m.kind = b ↔ m.kind.toNat = b.toNat := fun b => by bv_omega
  simp only [RxMessage.lengthOk, RxMessage.lengthRight, code]
  generalize m.kind.toNat = k at low high form
  by_cases configure : k = 13
  · obtain h | h := form configure <;> simp [configure, h]
  · interval_cases k <;> simp [and_assoc] at configure ⊢

theorem RxMessage.unexpected_iff (m : RxMessage) (address : Nat) :
    m.unexpected address = true ↔ m.isUnexpected address := by
  have code : ∀ a b : Byte, a = b ↔ a.toNat = b.toNat := fun a b => by bv_omega
  simp [RxMessage.unexpected, RxMessage.isUnexpected, isRequestKind, isPeerKind, isReplyKind, code, or_assoc, and_assoc]

/-- R14: a message in which none of the five conditions holds is valid. -/
theorem RxMessage.error_eq_none {m : RxMessage} {address : Nat} (hc : m.checkRight) (hk : m.kindRight)
    (hl : m.lengthRight) (self : m.source.toNat ≠ address) (expected : ¬ m.isUnexpected address) :
    m.error address = none := by
  have expected' : m.unexpected address = false := by simpa [← m.unexpected_iff] using expected
  simp [RxMessage.error, m.checkOk_iff.mpr hc, m.kindOk_iff.mpr hk, (lengthOk_iff hk).mpr hl, self, expected']

/-! ### The command that a message spells (R185) -/

/-- R15: an expected message to the engine's own address is a request. -/
theorem RxMessage.request_of_dest_own {m : RxMessage} {address : Nat} (hk : m.kindRight)
    (expected : ¬ m.isUnexpected address) (nonzero : 1 ≤ address) (own : m.dest.toNat = address) :
    isRequestKind m.kind.toNat = true := by
  obtain ⟨low, high, -⟩ := hk
  have reply : ¬ isReplyKind m.kind.toNat = true := fun h => by
    simp [← m.unexpected_iff, RxMessage.unexpected, h, own] at expected
  have peer : ¬ isPeerKind m.kind.toNat = true := fun h => by
    simp [← m.unexpected_iff, RxMessage.unexpected, h, own, Nat.ne_of_gt nonzero] at expected
  simp only [isRequestKind, isReplyKind, isPeerKind, decide_eq_true_eq] at *
  omega

/-- R15: an expected message to 0 is a report or claim message. -/
theorem RxMessage.peer_of_dest_zero {m : RxMessage} {address : Nat} (hk : m.kindRight)
    (expected : ¬ m.isUnexpected address) (zero : m.dest = 0) : isPeerKind m.kind.toNat = true := by
  obtain ⟨low, high, -⟩ := hk
  have reply : ¬ isReplyKind m.kind.toNat = true := fun h => by
    simp [← m.unexpected_iff, RxMessage.unexpected, h, zero] at expected
  have request : ¬ isRequestKind m.kind.toNat = true := fun h => by
    simp [← m.unexpected_iff, RxMessage.unexpected, h, zero] at expected
  simp only [isRequestKind, isReplyKind, isPeerKind, decide_eq_true_eq] at *
  omega

end Sys2Proof

namespace Sys2Proof.Machine

/-- R183: a selector above 6 names none of the seven queries. -/
theorem State.query_of_unknown {selector : Byte} (unknown : 7 ≤ selector.toNat) (s : State) (src : Byte) (tag : Half)
    (index clear : Byte) : s.query src tag selector index clear = s.queryUnknown src tag := by
  unfold State.query
  split
  case h_8 => rfl
  all_goals omega

/-- R183: a STATUS QUERY with a selector above 6 spells the command of an unknown selector. -/
theorem request?_of_unknown_selector {m : RxMessage} (hk : m.kind.toNat = 10)
    (unknown : 7 ≤ (byteAt m.payload 2).toNat) :
    m.request? = some (.statusQueryUnknownSelector m.source (halfAt m.payload 0) (byteAt m.payload 2)) := by
  simp only [RxMessage.request?, hk]
  split
  case h_8 => rfl
  all_goals omega

/-- R183: the STATUS QUERY command that a selector byte spells carries out that query. -/
theorem exec_request_of_query {m : RxMessage} (hk : m.kind.toNat = 10) :
    ∃ c, m.request? = some c ∧ ∀ s, exec c s = .next (s.fromStationDo m.source
      (s.query m.source (halfAt m.payload 0) (byteAt m.payload 2) (byteAt m.payload 3) (byteAt m.payload 4))) := by
  by_cases known : (byteAt m.payload 2).toNat < 7
  · simp only [RxMessage.request?, hk, State.query]
    generalize (byteAt m.payload 2).toNat = selector at known
    interval_cases selector <;> exact ⟨_, rfl, fun _ => rfl⟩
  · have unknown : 7 ≤ (byteAt m.payload 2).toNat := Nat.le_of_not_lt known
    refine ⟨_, request?_of_unknown_selector hk unknown, fun s => ?_⟩
    rw [State.query_of_unknown unknown]
    exact congrArg Host.Outcome.next (if_pos unknown)

/-- R17, R185: the command that a request spells does what the CSU does with the request. -/
theorem exec_request {m : RxMessage} (hk : isRequestKind m.kind.toNat = true) :
    ∃ c, m.request? = some c ∧ ∀ s, exec c s = .next (s.fromStationDo m.source (s.takeRequest m)) := by
  obtain order | cancel | query | clear | configure | restart := of_decide_eq_true hk
  · simp only [RxMessage.request?, State.takeRequest, order]
    exact ⟨_, rfl, fun _ => rfl⟩
  · simp only [RxMessage.request?, State.takeRequest, cancel]
    exact ⟨_, rfl, fun _ => rfl⟩
  · simpa only [State.takeRequest, query] using exec_request_of_query query
  · simp only [RxMessage.request?, State.takeRequest, clear]
    exact ⟨_, rfl, fun _ => rfl⟩
  · simp only [RxMessage.request?, State.takeRequest, configure]
    by_cases engine : byteAt m.payload 2 = 1
    · simp only [if_pos engine]
      exact ⟨_, rfl, fun _ => rfl⟩
    · simp only [if_neg engine]
      exact ⟨_, rfl, fun _ => rfl⟩
  · simp only [RxMessage.request?, State.takeRequest, restart]
    exact ⟨_, rfl, fun _ => rfl⟩

/-- R17, R185: the command that a report or claim message spells does what the PVU does with the message. -/
theorem exec_report {m : RxMessage} (hk : isPeerKind m.kind.toNat = true) :
    ∃ c, m.report? = some c ∧ ∀ s, exec c s = .next (s.takeReport m) := by
  obtain ⟨low, high⟩ := of_decide_eq_true hk
  simp only [RxMessage.report?, State.takeReport]
  generalize m.kind.toNat = k at low high
  interval_cases k <;> exact ⟨_, rfl, fun _ => rfl⟩

/-! ### The end of a valid message (R13, R14, R17) -/

@[simp] theorem State.atValidEnd_csu (s : State) : s.atValidEnd.csu = s.csu := rfl

/-- R13, R14, R17, R18: a valid message that another station has sent is counted and routed. -/
theorem State.messageEnd_of_valid {s : State} {m : RxMessage} (other : s.receivingOther)
    (valid : m.error s.csu.address = none) : s.messageEnd m = s.atValidEnd.route m := by
  obtain ⟨receiving, notOwn, notSending⟩ := other
  have evaluated : s.messageEnd m = s.atMessageEnd.evaluateMessage m := by
    simp [State.messageEnd, notOwn, receiving, notSending, State.atMessageEnd]
  have counted : s.atMessageEnd.evaluateMessage m = s.atMessageEnd.countRxValid.route m := by
    have : m.error s.atMessageEnd.csu.address = none := valid
    simp only [State.evaluateMessage, this]
  exact evaluated.trans counted

/-- R17: to the engine's own address. -/
theorem State.route_own {s : State} {m : RxMessage} (own : m.dest.toNat = s.csu.address) :
    s.route m = s.fromStationDo m.source (s.takeRequest m) := if_pos own

/-- R17: to 0. -/
theorem State.route_zero {s : State} {m : RxMessage} (nonzero : 1 ≤ s.csu.address) (zero : m.dest = 0) :
    s.route m = s.takeReport m := by
  have notOwn : ¬ (0 : Nat) = s.csu.address := by omega
  simp [State.route, zero, notOwn]

/-- R17: to another address. -/
theorem State.route_other {s : State} {m : RxMessage} (nonzero : m.dest ≠ 0) (other : m.dest.toNat ≠ s.csu.address) :
    s.route m = s := by
  have notZero : m.dest.toNat ≠ 0 := by bv_omega
  simp only [State.route, other, notZero, if_false]

/-- Settles O18: a message in which no condition of R14 holds is counted and routed (`State.messageEnd_of_valid`). To the
own address only a request is expected and to 0 only a report or claim message, and each spells its command. -/
theorem validMessagesAreHandedOn : Obligations.ValidMessagesAreHandedOn := by
  intro s m other nonzero hc hk hl self expected
  have handed : exec (.messageEnd m) s = .next (s.atValidEnd.route m) :=
    congrArg Host.Outcome.next (State.messageEnd_of_valid other (RxMessage.error_eq_none hc hk hl self expected))
  refine ⟨fun own => ?_, fun zero => ?_, fun notZero notOwn => ?_⟩
  · obtain ⟨c, spelled, runs⟩ := exec_request (RxMessage.request_of_dest_own hk expected nonzero own)
    exact ⟨c, spelled, by rw [handed, runs, State.route_own (s := s.atValidEnd) own]⟩
  · obtain ⟨c, spelled, runs⟩ := exec_report (RxMessage.peer_of_dest_zero hk expected zero)
    exact ⟨c, spelled, by rw [handed, runs, State.route_zero (s := s.atValidEnd) nonzero zero]⟩
  · rw [handed, State.route_other (s := s.atValidEnd) notZero notOwn]

end Sys2Proof.Machine
end

section
/-!
Claims: when one beats another (R29), and what a CLAIM or HOLD does to the view while the own state is NONE, WAITING or
SETTLING (R28, R30, R35).
-/
namespace Sys2Proof

/-- Introduction, stamp comparison. -/
theorem stampEarlier_iff (a b : Half) : stampEarlier a b = true ↔ 1 ≤ (b - a).toNat ∧ (b - a).toNat ≤ 32767 :=
  decide_eq_true_iff

/-- The distance from b to a and the one from a to b make a full turn. -/
theorem toNat_stamp_sub_swap (a b : Half) : (a - b).toNat = (65536 - (b - a).toNat) % 65536 := by
  bv_omega

/-- Of two stamps neither is earlier when they are equal or half a turn apart. -/
theorem neither_stampEarlier_iff (a b : Half) :
    (¬ stampEarlier a b = true ∧ ¬ stampEarlier b a = true) ↔ (b - a).toNat = 0 ∨ (b - a).toNat = 32768 := by
  have below : (b - a).toNat < 65536 := (b - a).isLt
  rw [stampEarlier_iff, stampEarlier_iff, toNat_stamp_sub_swap a b]
  omega

theorem not_stampEarlier_of_stampEarlier {a b : Half} (h : stampEarlier a b = true) : stampEarlier b a = false := by
  rw [stampEarlier_iff] at h
  rw [← Bool.not_eq_true, stampEarlier_iff, toNat_stamp_sub_swap]
  omega

end Sys2Proof

namespace Sys2Proof.Machine

/-! ### Comparing claims (R29) -/

theorem beats_of_stampEarlier {a b : Half} (h : stampEarlier a b = true) (x y : Nat) : beats a x b y = true := by
  simp [beats, h]

theorem beats_of_stampLater {a b : Half} (h : stampEarlier b a = true) (x y : Nat) : beats a x b y = false := by
  simp [beats, h, not_stampEarlier_of_stampEarlier h]

/-- Where neither stamp is earlier, the lower address decides. -/
theorem beats_of_neither {a b : Half} (hab : ¬ stampEarlier a b = true) (hba : ¬ stampEarlier b a = true) (x y : Nat) :
    beats a x b y = decide (x < y) := by
  simp [beats, hab, hba]

theorem beats_iff (a b : Half) (x y : Nat) :
    beats a x b y = true ↔ stampEarlier a b = true ∨ ((¬ stampEarlier a b = true ∧ ¬ stampEarlier b a = true) ∧ x < y) := by
  simp [beats]

/-- R29: of two claims from different engines exactly one beats the other. -/
theorem beats_iff_not_beaten (a b : Half) {x y : Nat} (different : x ≠ y) :
    beats a x b y = true ↔ beats b y a x = false := by
  by_cases hab : stampEarlier a b = true
  · exact iff_of_true (beats_of_stampEarlier hab x y) (beats_of_stampLater hab y x)
  by_cases hba : stampEarlier b a = true
  · simp [beats_of_stampLater hba, beats_of_stampEarlier hba]
  · rw [beats_of_neither hab hba, beats_of_neither hba hab, decide_eq_true_iff, decide_eq_false_iff_not]
    omega

/-- Settles O16, by the three cases of the stamps: one earlier, the other earlier, neither. -/
theorem exactlyOneClaimBeatsTheOther : Obligations.ExactlyOneClaimBeatsTheOther := by
  intro a b x y
  refine ⟨?_, beats_iff_not_beaten a b⟩
  rw [beats_iff, neither_stampEarlier_iff, stampEarlier_iff]

/-! ### The resource of a claim message (R28) -/

theorem resourceOf_natByte (r : ResourceNo) : resourceOf (natByte r.val) = some r := by
  revert r; decide

theorem resourceOf_of_above {resource : Byte} (above : 9 ≤ resource.toNat) : resourceOf resource = none :=
  dif_neg (Nat.not_lt.mpr above)

theorem State.onResource_natByte {s : State} {src : Byte} (peer : s.fromPeer src = true) (r : ResourceNo)
    (f : ResourceNo → State) : s.onResource src (natByte r.val) f = f r := by
  simp only [State.onResource, peer, if_true, resourceOf_natByte]

theorem State.onResource_of_above {resource : Byte} (above : 9 ≤ resource.toNat) (s : State) (src : Byte)
    (f : ResourceNo → State) : s.onResource src resource f = s := by
  simp only [State.onResource, resourceOf_of_above above, ite_self]

/-! ### What the view records (R30, R35) -/

@[simp] theorem State.setClaim_settled (s : State) (r : ResourceNo) (c : ClaimEntry) :
    (s.setClaim r c).settled = s.settled := rfl

@[simp] theorem State.observe_settled (s : State) (r : ResourceNo) (x : Nat) (t : Half) :
    (s.observe r x t).settled = s.settled := by
  simp only [State.observe, apply_ite State.settled, State.setClaim_settled, ite_self]

@[simp] theorem State.contest_settled (s : State) (r : ResourceNo) (x : Nat) (t : Half) :
    (s.contest r x t).settled = s.settled := by
  simp only [State.contest, apply_ite State.settled, State.setClaim_settled, ite_self]

/-- R30: the entry is free, or the sender's own, or its claim beats the recorded one. -/
theorem State.observe_of_taken {s : State} {r : ResourceNo} {x : Nat} {t : Half}
    (taken : (s.claimOf r).holder = none ∨ (s.claimOf r).holder = some x ∨
      ∃ y, (s.claimOf r).holder = some y ∧ beats t x (s.claimOf r).stamp y = true) :
    s.observe r x t = s.setClaim r ((s.claimOf r).heardFrom x t s.uls.f) := by
  obtain free | own | ⟨y, other, wins⟩ := taken
  · simp [State.observe, free]
  · simp [State.observe, own]
  · simp [State.observe, other, wins]

/-- R30: the recorded peer's claim beats the sender's. -/
theorem State.observe_of_beaten {s : State} {r : ResourceNo} {x y : Nat} {t : Half} (other : (s.claimOf r).holder = some y)
    (different : y ≠ x) (loses : beats t x (s.claimOf r).stamp y = false) : s.observe r x t = s := by
  simp [State.observe, other, different, loses]

/-- R35: the settle is lost to a claim that beats the own one, and contested by any other. -/
theorem State.contest_eq (s : State) (r : ResourceNo) (x : Nat) (t : Half) :
    s.contest r x t = s.setClaim r
      (if beats t x (s.claimOf r).ownStamp s.csu.address then
        { (s.claimOf r).heardFrom x t s.uls.f with own := .waiting }
      else { s.claimOf r with contested := true }) :=
  (apply_ite (s.setClaim r) _ _ _).symm

/-! ### CLAIM and HOLD -/

section
variable {s : State} {r : ResourceNo}

theorem State.hearClaim_of_unclaimed (own : (s.claimOf r).own = .none ∨ (s.claimOf r).own = .waiting) (x : Nat)
    (t : Half) : s.hearClaim r x t = s.observe r x t := by
  obtain own | own := own <;> simp only [State.hearClaim, own]

theorem State.hearHold_of_unclaimed (own : (s.claimOf r).own = .none ∨ (s.claimOf r).own = .waiting) (x : Nat)
    (t : Half) : s.hearHold r x t = s.observe r x t := by
  obtain own | own := own <;> simp only [State.hearHold, own]

theorem State.hearClaim_of_settling (own : (s.claimOf r).own = .settling) (x : Nat) (t : Half) :
    s.hearClaim r x t = s.contest r x t := by
  simp only [State.hearClaim, own]

theorem State.hearHold_of_settling (own : (s.claimOf r).own = .settling) (x : Nat) (t : Half) :
    s.hearHold r x t = s.contest r x t := by
  simp only [State.hearHold, own]

end

theorem exec_claim {s : State} {src : Byte} (peer : s.fromPeer src = true) (r : ResourceNo) (stamp : Half) :
    exec (.claim src (natByte r.val) stamp) s = .next (s.hearClaim r src.toNat stamp) :=
  congrArg Host.Outcome.next (State.onResource_natByte peer r _)

theorem exec_hold {s : State} {src : Byte} (peer : s.fromPeer src = true) (r : ResourceNo) (stamp : Half) :
    exec (.hold src (natByte r.val) stamp) s = .next (s.hearHold r src.toNat stamp).settleEvent :=
  congrArg Host.Outcome.next (State.onResource_natByte peer r _)

section
variable {s : State} {src : Byte} {stamp : Half} {msg : Byte → Byte → Half → Instr}

/-- R28: a resource above 8 is not in the view. -/
theorem exec_claimMessage_of_above (kind : msg = .claim ∨ msg = .hold) {resource : Byte} (above : 9 ≤ resource.toNat) :
    exec (msg src resource stamp) s = .next s := by
  obtain rfl | rfl := kind
  · exact congrArg Host.Outcome.next (State.onResource_of_above above s src _)
  · exact congrArg Host.Outcome.next (State.onResource_of_above above s src _)

/-- R30: in NONE and WAITING a CLAIM and a HOLD are observed alike. -/
theorem exec_claimMessage_of_unclaimed (kind : msg = .claim ∨ msg = .hold) (peer : s.fromPeer src = true)
    (settled : s.settled = true) {r : ResourceNo} (own : (s.claimOf r).own = .none ∨ (s.claimOf r).own = .waiting) :
    exec (msg src (natByte r.val) stamp) s = .next (s.observe r src.toNat stamp) := by
  obtain rfl | rfl := kind
  · rw [exec_claim peer, State.hearClaim_of_unclaimed own]
  · rw [exec_hold peer, State.hearHold_of_unclaimed own, State.settleEvent_of _ (by simpa using settled)]

/-- R35: in SETTLING a CLAIM and a HOLD contest the own claim alike. -/
theorem exec_claimMessage_of_settling (kind : msg = .claim ∨ msg = .hold) (peer : s.fromPeer src = true)
    (settled : s.settled = true) {r : ResourceNo} (own : (s.claimOf r).own = .settling) :
    exec (msg src (natByte r.val) stamp) s = .next (s.contest r src.toNat stamp) := by
  obtain rfl | rfl := kind
  · rw [exec_claim peer, State.hearClaim_of_settling own]
  · rw [exec_hold peer, State.hearHold_of_settling own, State.settleEvent_of _ (by simpa using settled)]

end

/-- Settles O26: each message is observed (`exec_claimMessage_of_unclaimed`) or contests the settle
(`exec_claimMessage_of_settling`), and the laws of `State.observe` and `State.contest` say what the view then records. -/
theorem claimMessagesUpdateTheView : Obligations.ClaimMessagesUpdateTheView := by
  intro s src stamp peer settled msg kind
  refine ⟨fun resource above => exec_claimMessage_of_above kind above, fun r => ⟨fun own => ⟨?_, ?_⟩, fun own => ?_⟩⟩
  · intro taken
    rw [exec_claimMessage_of_unclaimed kind peer settled own, State.observe_of_taken taken]
    rfl
  · intro y other different loses
    rw [exec_claimMessage_of_unclaimed kind peer settled own, State.observe_of_beaten other different loses]
  · rw [exec_claimMessage_of_settling kind peer settled own, State.contest_eq]
    rfl

end Sys2Proof.Machine
end

section
/-!
The division of the Allocation Unit (R43 to R49): what a round settles, where the rounds end, who receives the leftover
units, and the sum of the allocations. A settled requester has its demand, so the sum turns on one balance: the demands
settled in the rounds and the remaining capacity make up the capacity (`demandSum_finalRound`), and the fair shares of
the final allotment with its leftover make up the remaining capacity.
-/
namespace Sys2Proof.Machine

/-! ### Fair shares (R43, R45) -/

/-- R43: a weight counts for 1 at least. -/
theorem Requester.w_pos (r : Requester) : 0 < r.w := by
  unfold Requester.w clampNat
  omega

theorem weightSum_pos {u : List Requester} (nonempty : u ≠ []) : 0 < weightSum u := by
  obtain ⟨r, rest, rfl⟩ := List.exists_cons_of_ne_nil nonempty
  have positive := r.w_pos
  simp only [weightSum, List.map_cons, List.sum_cons]
  omega

/-- Each quotient is rounded down. -/
theorem mul_sum_fairShare_le (cr w : Nat) (u : List Requester) :
    w * (u.map (fairShare cr w)).sum ≤ cr * weightSum u := by
  induction u with
  | nil => simp
  | cons r u ih =>
    have rounded : w * fairShare cr w r ≤ cr * r.w := Nat.mul_div_le _ _
    simp only [weightSum, List.map_cons, List.sum_cons, Nat.mul_add] at ih ⊢
    omega

/-- Each quotient is rounded down by less than 1. -/
theorem mul_weightSum_le {w : Nat} (positive : 0 < w) (cr : Nat) (u : List Requester) :
    cr * weightSum u + u.length ≤ w * ((u.map (fairShare cr w)).sum + u.length) := by
  induction u with
  | nil => simp [weightSum]
  | cons r u ih =>
    have rounded : cr * r.w < w * (fairShare cr w r + 1) := Nat.lt_mul_div_succ _ positive
    simp only [weightSum, List.map_cons, List.sum_cons, List.length_cons, Nat.mul_add] at ih rounded ⊢
    omega

/-- R46: the fair shares of a round sum to at most the remaining capacity. -/
theorem sum_fairShare_le (u : List Requester) (cr : Nat) : (u.map (fairShare cr (weightSum u))).sum ≤ cr := by
  by_cases empty : u = []
  · simp [empty]
  · have total := mul_sum_fairShare_le cr (weightSum u) u
    rw [Nat.mul_comm cr] at total
    exact Nat.le_of_mul_le_mul_left total (weightSum_pos empty)

/-- R48: the leftover is less than the number of members. -/
theorem lt_sum_fairShare_add_length {u : List Requester} (nonempty : u ≠ []) (cr : Nat) :
    cr < (u.map (fairShare cr (weightSum u))).sum + u.length := by
  have total := mul_weightSum_le (weightSum_pos nonempty) cr u
  have members : 0 < u.length := List.length_pos_of_ne_nil nonempty
  rw [Nat.mul_comm cr] at total
  exact Nat.lt_of_mul_lt_mul_left (a := weightSum u) (by omega)

/-! ### The rounds (R46) -/

theorem satisfied_perm (u : List Requester) (cr : Nat) : (satisfied u cr ++ unsatisfied u cr).Perm u := by
  simpa only [satisfied, unsatisfied, decide_not] using List.filter_append_perm _ u

theorem unsatisfied_sublist (u : List Requester) (cr : Nat) : (unsatisfied u cr).Sublist u :=
  List.filter_sublist

theorem demandSum_append (u v : List Requester) : demandSum (u ++ v) = demandSum u + demandSum v := by
  simp [demandSum]

theorem demandSum_of_perm {u v : List Requester} (same : u.Perm v) : demandSum u = demandSum v :=
  (same.map Requester.demand).sum_eq

/-- R46: the remaining capacity cannot become negative. -/
theorem demandSum_satisfied_le (u : List Requester) (cr : Nat) : demandSum (satisfied u cr) ≤ cr :=
  calc demandSum (satisfied u cr)
      ≤ ((satisfied u cr).map (fairShare cr (weightSum u))).sum :=
        List.sum_le_sum fun _ member => of_decide_eq_true (List.mem_filter.mp member).2
    _ ≤ (u.map (fairShare cr (weightSum u))).sum := (List.filter_sublist.map _).sum_le_sum fun _ _ => Nat.zero_le _
    _ ≤ cr := sum_fairShare_le u cr

theorem finalRound_sublist (n : Nat) (u : List Requester) (cr : Nat) : (finalRound n u cr).1.Sublist u := by
  fun_induction finalRound n u cr with
  | case1 => exact .refl _
  | case2 => exact .refl _
  | case3 n u cr _ ih => exact ih.trans (unsatisfied_sublist u cr)

/-- R46: the rounds take from the capacity exactly the demands that they settle. -/
theorem demandSum_finalRound (n : Nat) (u : List Requester) (cr : Nat) :
    demandSum u + (finalRound n u cr).2 = cr + demandSum (finalRound n u cr).1 := by
  fun_induction finalRound n u cr with
  | case1 => exact Nat.add_comm _ _
  | case2 => exact Nat.add_comm _ _
  | case3 n u cr _ ih =>
    have parts := demandSum_of_perm (satisfied_perm u cr)
    have affordable := demandSum_satisfied_le u cr
    rw [demandSum_append] at parts
    omega

/-- R47, R50: after as many rounds as there are members, nobody left is satisfied by the fair share. -/
theorem satisfied_finalRound {n : Nat} {u : List Requester} (enough : u.length ≤ n) (cr : Nat) :
    satisfied (finalRound n u cr).1 (finalRound n u cr).2 = [] := by
  fun_induction finalRound n u cr with
  | case1 u => simp [satisfied, List.eq_nil_of_length_eq_zero (Nat.le_zero.mp enough)]
  | case2 _ _ _ settled => exact List.isEmpty_iff.mp settled
  | case3 n u cr some_satisfied ih =>
    have parts := (satisfied_perm u cr).length_eq
    have leaves : 0 < (satisfied u cr).length := List.length_pos_of_ne_nil (mt List.isEmpty_iff.mpr some_satisfied)
    rw [List.length_append] at parts
    exact ih (by omega)

/-! ### The final allotment (R47, R48) -/

/-- R47: the fair share of the final allotment. -/
def AuRequest.finalShare (q : AuRequest) (r : Requester) : Nat := fairShare q.final.2 (weightSum q.final.1) r

theorem AuRequest.leftover_eq (q : AuRequest) : q.leftover = q.final.2 - (q.final.1.map q.finalShare).sum := rfl

/-- R44: the requesters that take no part have demand 0. -/
theorem AuRequest.demandSum_unsettled (q : AuRequest) : demandSum q.unsettled = demandSum q.requesters := by
  unfold unsettled demandSum
  induction q.requesters with
  | nil => rfl
  | cons r u ih => by_cases zero : r.demand = 0 <;> simpa [zero] using ih

theorem AuRequest.final_sublist (q : AuRequest) : q.final.1.Sublist q.requesters :=
  (finalRound_sublist _ _ _).trans List.filter_sublist

/-- The settled demands and the remaining capacity make up the capacity. -/
theorem AuRequest.demandSum_final (q : AuRequest) :
    demandSum q.requesters + q.final.2 = q.capacity + demandSum q.final.1 := by
  rw [← q.demandSum_unsettled]
  exact demandSum_finalRound _ _ _

/-- R47: every member of the final allotment demanded more than its fair share. -/
theorem AuRequest.finalShare_lt_demand {q : AuRequest} {r : Requester} (member : r ∈ q.final.1) :
    q.finalShare r < r.demand := by
  have nobody : satisfied q.final.1 q.final.2 = [] := satisfied_finalRound (Nat.le_refl _) _
  simpa [finalShare] using List.filter_eq_nil_iff.mp nobody r member

theorem AuRequest.sum_finalShare_le (q : AuRequest) : (q.final.1.map q.finalShare).sum ≤ q.final.2 :=
  sum_fairShare_le _ _

/-- R48: the leftover is less than the number of members, so nobody receives more than one unit. -/
theorem AuRequest.leftover_lt {q : AuRequest} (nonempty : q.final.1 ≠ []) : q.leftover < q.final.1.length := by
  have short : q.final.2 < (q.final.1.map q.finalShare).sum + q.final.1.length :=
    lt_sum_fairShare_add_length nonempty _
  have fits := q.sum_finalShare_le
  rw [q.leftover_eq]
  omega

/-- R49: the members of the final allotment demanded more than the remaining capacity. -/
theorem AuRequest.final_lt_demandSum {q : AuRequest} (nonempty : q.final.1 ≠ []) : q.final.2 < demandSum q.final.1 :=
  calc q.final.2
      < (q.final.1.map q.finalShare).sum + q.final.1.length := lt_sum_fairShare_add_length nonempty _
    _ = (q.final.1.map fun r => q.finalShare r + 1).sum := by simp [List.sum_map_add]
    _ ≤ demandSum q.final.1 := List.sum_le_sum fun _ member => finalShare_lt_demand member

/-! ### One allocation (R44 to R48) -/

/-- R47, R48: a member of the final allotment receives its fair share and perhaps a leftover unit. -/
theorem AuRequest.allocationOf_of_final {q : AuRequest} {r : Requester} (member : r ∈ q.final.1) :
    q.allocationOf r = q.finalShare r + if r.id ∈ q.leftoverTo then 1 else 0 := by
  have named : q.final.1.any (fun x => decide (x.id = r.id)) = true := List.any_eq_true.mpr ⟨r, member, by simp⟩
  simp [allocationOf, finalShare, named]

/-- R44, R46: a requester settled before the final allotment receives its demand. -/
theorem AuRequest.allocationOf_of_settled {q : AuRequest} {r : Requester}
    (settled : r.id ∉ q.final.1.map Requester.id) : q.allocationOf r = r.demand := by
  have unnamed : q.final.1.any (fun x => decide (x.id = r.id)) = false := by
    simpa [List.any_eq_false] using settled
  simp [allocationOf, unnamed]

theorem AuRequest.allocationOf_le_of_final {q : AuRequest} {r : Requester} (member : r ∈ q.final.1) :
    q.allocationOf r ≤ r.demand := by
  have above := finalShare_lt_demand member
  rw [allocationOf_of_final member]
  split <;> omega

/-! ### The whole division (R49) -/

/-- A walk of one list that keeps the members of another meets each of these once. -/
theorem filter_mem_perm {a b : List Nat} (ha : a.Nodup) (hb : b.Nodup) (sub : b ⊆ a) :
    (a.filter fun i => decide (i ∈ b)).Perm b :=
  (List.perm_ext_iff_of_nodup (ha.filter _) hb).mpr fun i => by simpa using @sub i

/-- R48: the walk of the order list passes over everybody outside the final allotment. -/
theorem AuRequest.leftoverTo_eq (q : AuRequest) :
    q.leftoverTo = (q.order.filter fun i => decide (i ∈ q.final.1.map Requester.id)).take q.leftover := by
  unfold leftoverTo
  congr 2
  ext i
  exact Bool.eq_iff_iff.mpr (by simp)

/-- One unit for each requester named by a list. -/
theorem sum_units_eq_length (u : List Requester) (named : List Nat) :
    (u.map fun r => if r.id ∈ named then 1 else 0).sum =
      ((u.map Requester.id).filter fun i => decide (i ∈ named)).length := by
  induction u with
  | nil => rfl
  | cons r u ih => by_cases given : r.id ∈ named <;> simp [given, ih, Nat.add_comm]

section
variable {q : AuRequest}

theorem AuRequest.nodup_final (ids : (q.requesters.map Requester.id).Nodup) : (q.final.1.map Requester.id).Nodup :=
  ids.sublist (q.final_sublist.map _)

/-- The final allotment and the settled requesters, which share no identity with it. -/
theorem AuRequest.exists_settled (ids : (q.requesters.map Requester.id).Nodup) :
    ∃ settled, q.requesters.Perm (q.final.1 ++ settled) ∧ ∀ r ∈ settled, r.id ∉ q.final.1.map Requester.id := by
  obtain ⟨settled, parts⟩ := q.final_sublist.exists_perm_append
  have apart := (parts.map Requester.id).nodup_iff.mp ids
  rw [List.map_append] at apart
  exact ⟨settled, parts, fun r member again => apart.disjoint again (List.mem_map_of_mem member)⟩

variable (ids : (q.requesters.map Requester.id).Nodup) (order : q.order.Perm (q.requesters.map Requester.id))
include ids order

/-- R48: the walk of the order list meets every member of the final allotment once. -/
theorem AuRequest.walk_perm :
    (q.order.filter fun i => decide (i ∈ q.final.1.map Requester.id)).Perm (q.final.1.map Requester.id) :=
  filter_mem_perm (order.nodup_iff.mpr ids) (nodup_final ids) fun _ member =>
    order.mem_iff.mpr ((q.final_sublist.map _).subset member)

/-- R48: the walk hands out the whole leftover, one unit to each member that it names. -/
theorem AuRequest.sum_leftover_units (nonempty : q.final.1 ≠ []) :
    (q.final.1.map fun r => if r.id ∈ q.leftoverTo then 1 else 0).sum = q.leftover := by
  have walk := walk_perm ids order
  have taken : q.leftoverTo.Sublist (q.order.filter fun i => decide (i ∈ q.final.1.map Requester.id)) := by
    rw [q.leftoverTo_eq]
    exact List.take_sublist _ _
  have named := filter_mem_perm (nodup_final ids) ((walk.nodup_iff.mpr (nodup_final ids)).sublist taken)
    fun _ member => walk.subset (taken.subset member)
  calc (q.final.1.map fun r => if r.id ∈ q.leftoverTo then 1 else 0).sum
      = ((q.final.1.map Requester.id).filter fun i => decide (i ∈ q.leftoverTo)).length :=
        sum_units_eq_length _ _
    _ = q.leftoverTo.length := named.length_eq
    _ = q.leftover := by
        rw [q.leftoverTo_eq, List.length_take, walk.length_eq, List.length_map]
        exact Nat.min_eq_left (leftover_lt nonempty).le

/-- R47, R48: the final allotment gives out exactly the remaining capacity. -/
theorem AuRequest.sum_allocationOf_final (nonempty : q.final.1 ≠ []) :
    (q.final.1.map q.allocationOf).sum = q.final.2 := by
  rw [List.map_congr_left fun r => allocationOf_of_final, List.sum_map_add, sum_leftover_units ids order nonempty,
    q.leftover_eq]
  exact Nat.add_sub_of_le q.sum_finalShare_le

/-- R49: the two ends of a computation, with everybody satisfied (R46) and with a final allotment (R47). -/
theorem AuRequest.sum_allocationOf :
    (q.requesters.map q.allocationOf).sum = min q.capacity (demandSum q.requesters) := by
  obtain ⟨settled, parts, apart⟩ := exists_settled ids
  have demands : demandSum q.requesters = demandSum q.final.1 + demandSum settled := by
    rw [demandSum_of_perm parts, demandSum_append]
  have allocations : (q.requesters.map q.allocationOf).sum =
      (q.final.1.map q.allocationOf).sum + demandSum settled := by
    rw [(parts.map _).sum_eq, List.map_append, List.sum_append, demandSum,
      List.map_congr_left fun r member => allocationOf_of_settled (apart r member)]
  have balance := q.demandSum_final
  by_cases empty : q.final.1 = []
  · simp only [empty, demandSum, List.map_nil, List.sum_nil] at demands allocations balance ⊢
    omega
  · have given := sum_allocationOf_final ids order empty
    have wanting := final_lt_demandSum empty
    omega

end

/-- R49: a requester in the final allotment has at most its demand (R47, R48), and every other exactly its demand. -/
theorem AuRequest.allocationOf_le_demand {q : AuRequest} (ids : (q.requesters.map Requester.id).Nodup) {r : Requester}
    (member : r ∈ q.requesters) : q.allocationOf r ≤ r.demand := by
  obtain ⟨settled, parts, apart⟩ := exists_settled ids
  obtain final | done := List.mem_append.mp (parts.mem_iff.mp member)
  · exact allocationOf_le_of_final final
  · exact (allocationOf_of_settled (apart r done)).le

/-- Settles O15: no allocation exceeds its demand (`AuRequest.allocationOf_le_demand`), and the sum is that of
`AuRequest.sum_allocationOf`. -/
theorem allocationsSumToTheSmaller : Obligations.AllocationsSumToTheSmaller := by
  intro q ids order
  refine ⟨fun r member => AuRequest.allocationOf_le_demand ids member, ?_⟩
  rw [AuRequest.allocations, List.map_map]
  exact AuRequest.sum_allocationOf ids order

end Sys2Proof.Machine
end

section
/-!
Admission (R97): the buffers a packet is cut into, what admission changes, and the answer of each condition. The cut is
read from its end, where all but the last buffer are the cut of a shorter packet (`dropLast_cutSegments`).
-/
namespace Sys2Proof.Machine

/-! ### The buffers of a packet -/

theorem lt_length_le_segmentsOf {data : List Byte} (nonempty : data ≠ []) :
    ∃ k, segmentsOf data.length = k + 1 ∧ 64 * k < data.length ∧ data.length ≤ 64 * (k + 1) := by
  have positive : 0 < data.length := List.length_pos_iff.mpr nonempty
  refine ⟨(data.length - 1) / 64, ?_⟩
  unfold segmentsOf
  omega

theorem flatten_cutSegments {n : Nat} {bs : List Byte} (enough : bs.length ≤ 64 * n) :
    (cutSegments n bs).flatten = bs := by
  induction n generalizing bs with
  | zero => exact (List.eq_nil_of_length_eq_zero (Nat.le_zero.mp enough)).symm
  | succ n ih =>
    have rest : (cutSegments n (bs.drop 64)).flatten = bs.drop 64 := ih (by rw [List.length_drop]; omega)
    rw [cutSegments, List.flatten_cons, rest, List.take_append_drop]

/-- One buffer more takes up the bytes from where the others end. -/
theorem cutSegments_succ_eq_append (n : Nat) (bs : List Byte) :
    cutSegments (n + 1) bs = cutSegments n bs ++ [(bs.drop (64 * n)).take 64] := by
  induction n generalizing bs with
  | zero => rfl
  | succ n ih =>
    rw [cutSegments, ih, List.drop_drop, cutSegments, List.cons_append, Nat.mul_succ, Nat.add_comm]

theorem dropLast_cutSegments (n : Nat) (bs : List Byte) : (cutSegments (n + 1) bs).dropLast = cutSegments n bs := by
  rw [cutSegments_succ_eq_append, List.dropLast_concat]

/-- Buffers that the packet fills have 64 bytes each. -/
theorem length_eq_of_mem_cutSegments {n : Nat} {bs : List Byte} (filled : 64 * n ≤ bs.length) {b : List Byte}
    (member : b ∈ cutSegments n bs) : b.length = 64 := by
  induction n generalizing bs with
  | zero => cases member
  | succ n ih =>
    obtain rfl | later := List.mem_cons.mp member
    · rw [List.length_take]
      omega
    · exact ih (by rw [List.length_drop]; omega) later

theorem length_bounds_of_mem_cutSegments {n : Nat} {bs : List Byte} (reached : 64 * n < bs.length) {b : List Byte}
    (member : b ∈ cutSegments (n + 1) bs) : 1 ≤ b.length ∧ b.length ≤ 64 := by
  rw [cutSegments_succ_eq_append, List.mem_append, List.mem_singleton] at member
  obtain full | rfl := member
  · rw [length_eq_of_mem_cutSegments reached.le full]
    omega
  · rw [List.length_take, List.length_drop]
    omega

/-! ### What admission changes -/

section
variable (s : State) (p : PortNo) (data : List Byte)

theorem State.admitPacket_free : (s.admitPacket p data).pqm.free = s.pqm.free - segmentsOf data.length := rfl

theorem State.admitPacket_uls : (s.admitPacket p data).uls =
    { s.uls with admitted := min 65535 (s.uls.admitted + segmentsOf data.length) } := rfl

theorem State.admitPacket_pq : (s.admitPacket p data).pq p =
    { s.pq p with
      queue := (s.pq p).queue ++
        [⟨(s.pq p).next, data.length, segmentsOf data.length, segmentsOf data.length, s.uls.f,
          cutSegments (segmentsOf data.length) data⟩]
      next := (s.pq p).next + 1 } :=
  State.pq_setPq _ p _

theorem State.admitPacket_pq_ne {x : PortNo} (other : x ≠ p) : (s.admitPacket p data).pq x = s.pq x :=
  State.pq_setPq_ne _ _ other.symm

end

/-! ### The conditions in their order -/

theorem exec_packetArrival (p : PortNo) (data : List Byte) (s : State) :
    exec (.packetArrival p data) s = .next (s.arrive p data) := rfl

theorem State.arrive_nil (s : State) (p : PortNo) : s.arrive p [] = s := rfl

section
variable {s : State} {p : PortNo} {data : List Byte} (nonempty : data ≠ [])
include nonempty

theorem State.arrive_of_notInService (notServing : (s.port p).state ≠ .inService) :
    s.arrive p data = s.count p fun c => { c with notInService := satInc c.notInService } := by
  simp only [State.arrive, List.length_eq_zero_iff, nonempty, notServing, if_false, ne_eq, not_false_eq_true, if_true]

variable (serving : (s.port p).state = .inService)
include serving

theorem State.arrive_of_overLimit
    (exceeds : 1536 < data.length ∨ (s.part p).limit < s.held p + segmentsOf data.length) :
    s.arrive p data = s.count p fun c => { c with portLimit := satInc c.portLimit } := by
  simp only [State.arrive, List.length_eq_zero_iff, nonempty, serving, exceeds, if_false, ne_eq, not_true_eq_false,
    if_true]

variable (within : ¬ (1536 < data.length ∨ (s.part p).limit < s.held p + segmentsOf data.length))
include within

theorem State.arrive_of_poolShort (short : s.pqm.free < segmentsOf data.length) :
    s.arrive p data = s.count p fun c => { c with poolEmpty := satInc c.poolEmpty } := by
  simp only [State.arrive, List.length_eq_zero_iff, nonempty, serving, within, short, if_false, ne_eq,
    not_true_eq_false, if_true]

theorem State.arrive_of_room (room : segmentsOf data.length ≤ s.pqm.free) :
    s.arrive p data = s.admitPacket p data := by
  simp only [State.arrive, List.length_eq_zero_iff, nonempty, serving, within, Nat.not_lt.mpr room, if_false, ne_eq,
    not_true_eq_false]

end

/-- Settles O41: the four `State.arrive_of_` lemmas answer the conditions in their order, and the laws of
`State.admitPacket` and `cutSegments` say what admission leaves. The limit is on the held count, which R79 sums in the
other order. -/
theorem packetsAreAdmittedOrDropped : Obligations.PacketsAreAdmittedOrDropped := by
  intro s p data n q dropped full
  have held : s.held p = s.queued p + s.retransmits p := Nat.add_comm _ _
  have full_iff : full ↔ 1536 < data.length ∨ (s.part p).limit < s.held p + segmentsOf data.length := by
    rw [held]
    rfl
  simp only [full_iff, exec_packetArrival]
  refine ⟨?_, ?_, ?_, ?_, ?_⟩
  · rintro rfl
    rw [State.arrive_nil]
  · intro nonempty notServing
    rw [State.arrive_of_notInService nonempty notServing]
    rfl
  · intro nonempty serving exceeds
    rw [State.arrive_of_overLimit nonempty serving exceeds]
    rfl
  · intro nonempty serving within short
    rw [State.arrive_of_poolShort nonempty serving within short]
    rfl
  · intro nonempty serving within room
    obtain ⟨k, segments, reached, enough⟩ := lt_length_le_segmentsOf nonempty
    refine ⟨s.admitPacket p data, _, congrArg _ (State.arrive_of_room nonempty serving within room),
      s.admitPacket_free p data, s.admitPacket_pq p data, rfl, ?_, cutSegments_length _ data, ?_, ?_,
      fun x other => s.admitPacket_pq_ne p data other, s.admitPacket_uls p data⟩
    · exact flatten_cutSegments (segments ▸ enough)
    · rw [segments, dropLast_cutSegments]
      exact fun b member => length_eq_of_mem_cutSegments reached.le member
    · rw [segments]
      exact fun b member => length_bounds_of_mem_cutSegments reached member

end Sys2Proof.Machine
end

section
/-!
SUPPORT. What leaves the power manager (Chapter 11) alone: every operation of the other blocks that a shed, a restore or
the close of an event can reach.
-/
namespace Sys2Proof.Machine

theorem foldl_pmg {α : Type} {f : State → α → State} (keeps : ∀ s a, (f s a).pmg = s.pmg) (l : List α) (s : State) :
    (l.foldl f s).pmg = s.pmg := by
  induction l generalizing s with
  | nil => rfl
  | cons a l ih => rw [List.foldl_cons, ih, keeps]

/-! ### Relays and claims -/

@[simp] theorem State.enforceSource_pmg (s : State) : s.enforceSource.pmg = s.pmg := by
  obtain ⟨m, same⟩ := s.enforceSource_same
  rw [same, State.setMfe_pmg]

@[simp] theorem State.enforce_pmg (s : State) : s.enforce.pmg = s.pmg := by
  obtain ⟨v, m, same⟩ := s.enforce_same
  rw [same]
  rfl

@[simp] theorem State.openFrontEnd_pmg (s : State) (p : PortNo) : (s.openFrontEnd p).pmg = s.pmg := by
  unfold State.openFrontEnd
  dsimp only
  split <;> rfl

@[simp] theorem State.offer_pmg (s : State) (m : Message) : (s.offer m).pmg = s.pmg := (s.offer_soft m).wires.pmg

theorem State.giveUps_pmg (l : List ResourceNo) (s : State) : (l.foldl State.giveUp s).pmg = s.pmg :=
  (State.giveUps_soft l s).wires.pmg

@[simp] theorem State.releaseAll_pmg (s : State) : s.releaseAll.pmg = s.pmg := by
  simp [State.releaseAll, State.giveUps_pmg]

@[simp] theorem State.releaseAllBut_pmg (s : State) (b : ResourceNo) : (s.releaseAllBut b).pmg = s.pmg := by
  simp [State.releaseAllBut, State.giveUps_pmg, apply_ite State.pmg]

@[simp] theorem State.beginClaim_pmg (s : State) (r : ResourceNo) : (s.beginClaim r).pmg = s.pmg := by
  unfold State.beginClaim
  dsimp only
  split <;> simp

@[simp] theorem State.beginAccess_pmg (s : State) : s.beginAccess.pmg = s.pmg := by
  simp [State.beginAccess, apply_ite State.pmg]

@[simp] theorem State.claimBinder_pmg (s : State) (b : ResourceNo) : (s.claimBinder b).pmg = s.pmg := by
  simp [State.claimBinder, apply_ite State.pmg]

@[simp] theorem State.claimAccess_pmg (s : State) : s.claimAccess.pmg = s.pmg := by
  simp [State.claimAccess]

@[simp] theorem State.markWaiting_pmg (s : State) (b : ResourceNo) : (s.markWaiting b).pmg = s.pmg := rfl

@[simp] theorem State.markInUse_pmg (s : State) (b : ResourceNo) : (s.markInUse b).pmg = s.pmg := rfl

@[simp] theorem State.passBinder_pmg (s : State) (b : ResourceNo) (next : Option ResourceNo) :
    (s.passBinder b next).pmg = s.pmg := by
  simp [State.passBinder, apply_ite State.pmg]

/-! ### Cells and notices -/

@[simp] theorem State.addEntry_pmg (s : State) (e : QueueEntry) : (s.addEntry e).pmg = s.pmg := rfl

@[simp] theorem State.noticeDisplaced_pmg (s : State) (p : PortNo) (k : TestKind) :
    (s.noticeDisplaced p k).pmg = s.pmg := by
  unfold State.noticeDisplaced
  split
  · rfl
  · simp [apply_ite State.pmg]

@[simp] theorem State.autoRequest_pmg (s : State) (p : PortNo) (c : Condition) (prio : Nat) :
    (s.autoRequest p c prio).1.pmg = s.pmg := by
  unfold State.autoRequest
  split
  · rfl
  split
  · rfl
  split
  · rfl
  split
  · rfl
  split <;> simp

@[simp] theorem State.askCell_pmg (s : State) (p : PortNo) (c : Condition) : (s.askCell p c).pmg = s.pmg :=
  s.autoRequest_pmg p c _

@[simp] theorem State.askIf_pmg (s : State) (r : RequestState) (p : PortNo) (c : Condition) :
    (s.askIf r p c).pmg = s.pmg := by
  simp [State.askIf, apply_ite State.pmg]

@[simp] theorem State.levelAsk_pmg (s : State) (p : PortNo) (c : Condition) : (s.levelAsk p c).pmg = s.pmg := by
  simp [State.levelAsk, apply_ite State.pmg]

theorem settleLeaves_pmg (n : Nat) (s : State) : (settleLeaves n s).pmg = s.pmg := by
  induction n generalizing s with
  | zero => rfl
  | succ n ih =>
    unfold settleLeaves
    split
    · rw [ih]
      exact foldl_pmg (fun u (pc : PortNo × Condition) => u.askIf_pmg .waitRoom pc.1 pc.2) _ _
    · rfl

@[simp] theorem State.settleNotices_pmg (s : State) : s.settleNotices.pmg = s.pmg := settleLeaves_pmg 256 s

@[simp] theorem State.noticeStart_pmg (s : State) (p : PortNo) (k : TestKind) : (s.noticeStart p k).pmg = s.pmg := by
  unfold State.noticeStart
  split
  · rfl
  · simp [apply_ite State.pmg]

@[simp] theorem State.noticeEnd_pmg (s : State) (p : PortNo) (k : TestKind) (origin : Origin) :
    (s.noticeEnd p k origin).pmg = s.pmg := by
  unfold State.noticeEnd
  split
  · rfl
  · simp [apply_ite State.pmg]

/-! ### Ports -/

@[simp] theorem State.clearDrain_pmg (s : State) (p : PortNo) : (s.clearDrain p).pmg = s.pmg := rfl

@[simp] theorem State.clearMapOf_pmg (s : State) (p : PortNo) : (s.clearMapOf p).pmg = s.pmg := rfl

@[simp] theorem State.clearExit_pmg (s : State) (p : PortNo) : (s.clearExit p).pmg = s.pmg := rfl

@[simp] theorem State.discardQueues_pmg (s : State) (p : PortNo) : (s.discardQueues p).pmg = s.pmg := rfl

@[simp] theorem State.setShedPending_pmg (s : State) (p : PortNo) (x : Bool) : (s.setShedPending p x).pmg = s.pmg := rfl

@[simp] theorem State.setTakeWaiting_pmg (s : State) (p : PortNo) (x : Bool) : (s.setTakeWaiting p x).pmg = s.pmg := rfl

@[simp] theorem State.setReturn_pmg (s : State) (p : PortNo) (x : Option ReturnState) : (s.setReturn p x).pmg = s.pmg :=
  rfl

@[simp] theorem State.enterAs_pmg (s : State) (p : PortNo) (r : PortRecord) (st : PortState) :
    (s.enterAs p r st).pmg = s.pmg := by
  simp [State.enterAs, apply_ite State.pmg]

@[simp] theorem State.enter_pmg (s : State) (p : PortNo) (st : PortState) : (s.enter p st).pmg = s.pmg :=
  s.enterAs_pmg p _ st

@[simp] theorem State.startDrain_pmg (s : State) (p : PortNo) (reason : DrainReason) :
    (s.startDrain p reason).pmg = s.pmg :=
  s.enter_pmg p _

@[simp] theorem State.take_pmg (s : State) (p : PortNo) (k : TestKind) : (s.take p k).1.pmg = s.pmg := by
  unfold State.take
  split <;> simp [apply_ite Prod.fst, apply_ite State.pmg]

@[simp] theorem State.shed_pmg (s : State) (p : PortNo) : (s.shed p).pmg = s.pmg := by
  unfold State.shed
  split <;> simp [apply_ite State.pmg]

@[simp] theorem State.returnPort_pmg (s : State) (p : PortNo) : (s.returnPort p).pmg = s.pmg := by
  unfold State.returnPort
  dsimp only
  split <;> simp [apply_ite State.pmg]

@[simp] theorem State.shedAtOnce_pmg (s : State) (p : PortNo) : (s.shedAtOnce p).1.pmg = s.pmg := by
  unfold State.shedAtOnce
  dsimp only
  split <;> simp [apply_ite Prod.fst, apply_ite State.pmg]

@[simp] theorem State.restore_pmg (s : State) (p : PortNo) (k : TestKind) : (s.restore p k).1.pmg = s.pmg := by
  unfold State.restore
  dsimp only
  split <;> simp [apply_ite Prod.fst, apply_ite State.pmg]

@[simp] theorem State.disconnect_pmg (s : State) (p : PortNo) : (s.disconnect p).pmg = s.pmg := by
  simp [State.disconnect]

@[simp] theorem State.connectFrontEnd_pmg (s : State) (p : PortNo) : (s.connectFrontEnd p).pmg = s.pmg := rfl

@[simp] theorem State.connectAccess_pmg (s : State) (p : PortNo) : (s.connectAccess p).pmg = s.pmg := rfl

/-! ### The test sequencer -/

@[simp] theorem State.sourceOff_pmg (s : State) : s.sourceOff.pmg = s.pmg := rfl

@[simp] theorem State.startMeasuring_pmg (s : State) (k : StepKind) : (s.startMeasuring k).1.pmg = s.pmg := by
  unfold State.startMeasuring
  split <;> simp [apply_ite Prod.fst, apply_ite State.pmg]

@[simp] theorem State.startCalibration_pmg (s : State) : s.startCalibration.pmg = s.pmg := by
  simp [State.startCalibration, apply_ite State.pmg]

@[simp] theorem State.offerReport_pmg (s : State) (r : ResultRecord) : (s.offerReport r).pmg = s.pmg := by
  simp [State.offerReport, apply_ite State.pmg]

@[simp] theorem State.logResult_pmg (s : State) (r : ResultRecord) : (s.logResult r).pmg = s.pmg := by
  simp [State.logResult]

@[simp] theorem State.dropContext_pmg (s : State) (p : PortNo) : (s.dropContext p).pmg = s.pmg := rfl

@[simp] theorem State.finishTest_pmg (s : State) (t : RunningTest) (cause : Option AbortCause) (owned chain : Bool) :
    (s.finishTest t cause owned chain).pmg = s.pmg := by
  simp [State.finishTest, apply_ite State.pmg]

@[simp] theorem State.finishSuspended_pmg (s : State) (c : Context) (cause : AbortCause) (owned : Bool) :
    (s.finishSuspended c cause owned).pmg = s.pmg := by
  simp [State.finishSuspended, apply_ite State.pmg]

@[simp] theorem State.enterStep_pmg (s : State) (t : RunningTest) : (s.enterStep t).pmg = s.pmg := by
  unfold State.enterStep
  split <;> simp [apply_ite State.pmg]

@[simp] theorem State.goOn_pmg (s : State) (t : RunningTest) : (s.goOn t).pmg = s.pmg := by
  simp [State.goOn, apply_ite State.pmg]

@[simp] theorem State.leaveClaim_pmg (s : State) (t : RunningTest) : (s.leaveClaim t).pmg = s.pmg := by
  simp [State.leaveClaim, apply_ite State.pmg]

@[simp] theorem State.heldNotice_pmg (s : State) (r : ResourceNo) : (s.heldNotice r).pmg = s.pmg := by
  unfold State.heldNotice
  split <;> simp [apply_ite State.pmg]

@[simp] theorem State.requestClaims_pmg (s : State) (t : RunningTest) : (s.requestClaims t).pmg = s.pmg := by
  simp [State.requestClaims, apply_ite State.pmg]

@[simp] theorem State.givenNotice_pmg (s : State) (p : PortNo) : (s.givenNotice p).pmg = s.pmg := by
  unfold State.givenNotice
  split <;> simp [apply_ite State.pmg]

@[simp] theorem State.startTest_pmg (s : State) (e : QueueEntry) : (s.startTest e).pmg = s.pmg := by
  unfold State.startTest
  dsimp only
  split <;> simp

@[simp] theorem State.resumeTest_pmg (s : State) (c : Context) : (s.resumeTest c).pmg = s.pmg := by
  simp [State.resumeTest, apply_ite State.pmg]

theorem runSelect_pmg (n : Nat) (s : State) : (runSelect n s).pmg = s.pmg := by
  induction n generalizing s with
  | zero => rfl
  | succ n ih =>
    unfold runSelect
    dsimp only
    split
    · split
      · rfl
      · split <;> simp [ih]
    · rfl

@[simp] theorem State.settleEvent_pmg (s : State) : s.settleEvent.pmg = s.pmg := by
  simp [State.settleEvent, runSelect_pmg]

@[simp] theorem State.withdrawnNotice_pmg (s : State) (p : PortNo) : (s.withdrawnNotice p).pmg = s.pmg := by
  unfold State.withdrawnNotice
  split
  · split <;> simp
  · split
    · split <;> simp
    · rfl

@[simp] theorem State.doShedAtOnce_pmg (s : State) (p : PortNo) : (s.doShedAtOnce p).pmg = s.pmg := by
  simp [State.doShedAtOnce, apply_ite State.pmg]

@[simp] theorem State.movedNotice_pmg (s : State) (p : PortNo) : (s.movedNotice p).pmg = s.pmg := by
  unfold State.movedNotice
  split <;> simp [apply_ite State.pmg]

@[simp] theorem State.doRestore_pmg (s : State) (p : PortNo) : (s.doRestore p).pmg = s.pmg := by
  have restored := s.restore_pmg p s.runningKind
  unfold State.doRestore
  split
  next t answer => rwa [answer] at restored
  next t ended answer =>
    have kept : t.pmg = s.pmg := by rwa [answer] at restored
    simp [apply_ite State.pmg, kept]

end Sys2Proof.Machine
end

section
/-!
The power share (R174 to R176): the walk that chooses the ports of the shared class, the restore counters that the
decisions leave, and, where no test stands, what a decision does to its own port and that it reaches no other.
-/
namespace Sys2Proof.Machine

/-! ### The walk of the shared class (R175) -/

/-- R175: every port of the walk gets a decision, in its order. -/
theorem map_fst_choosePorts (allocation total : Nat) (l : List (PortNo × Nat)) :
    (choosePorts allocation total l).map Prod.fst = l.map Prod.fst := by
  induction l generalizing total with
  | nil => rfl
  | cons x rest ih =>
    rw [choosePorts]
    split
    · rw [List.map_cons, List.map_cons, ih]
    · simp

/-- R175: the decision for a port is whether the sum up to it stays within the allocation. -/
theorem choosePorts_split (allocation total : Nat) (before after : List (PortNo × Nat)) (p : PortNo) (serv : Nat) :
    ∃ first last, first.map Prod.fst = before.map Prod.fst ∧ last.map Prod.fst = after.map Prod.fst ∧
      choosePorts allocation total (before ++ (p, serv) :: after) =
        first ++ (p, decide (total + ((before.map Prod.snd).sum + serv) ≤ allocation)) :: last := by
  induction before generalizing total with
  | nil =>
    by_cases fits : total + serv ≤ allocation
    · exact ⟨[], choosePorts allocation (total + serv) after, rfl, map_fst_choosePorts .., by simp [choosePorts, fits]⟩
    · exact ⟨[], after.map fun x => (x.1, false), rfl, by simp, by simp [choosePorts, fits]⟩
  | cons x before ih =>
    by_cases fits : total + x.2 ≤ allocation
    · obtain ⟨first, last, heads, tails, split⟩ := ih (total + x.2)
      exact ⟨(x.1, true) :: first, last, by simp [heads], tails, by simp [choosePorts, fits, split, Nat.add_assoc]⟩
    · have exceeds : ¬ total + (x.2 + (before.map Prod.snd).sum + serv) ≤ allocation := by omega
      exact ⟨(x.1, false) :: before.map fun y => (y.1, false), after.map fun y => (y.1, false), by simp, by simp,
        by simp [choosePorts, fits, exceeds]⟩

theorem State.mem_portsOf (s : State) (c : PortClass) (p : PortNo) :
    p ∈ s.portsOf c ↔ (s.port p).state ≠ .unfitted ∧ (s.part p).cls = c := by
  simp [State.portsOf, State.fittedPorts, State.fitted, mem_allPorts, and_comm]

theorem State.classUpTo_eq (s : State) (c : PortClass) (p : PortNo) :
    s.classUpTo c p = (s.portsOf c).filter fun x => decide (x ≤ p) := by
  rw [State.classUpTo, State.portsOf, State.fittedPorts, List.filter_filter, List.filter_filter]
  refine List.filter_congr fun x _ => ?_
  rw [Bool.eq_iff_iff]
  simp only [State.fitted, Bool.and_eq_true, decide_eq_true_eq, Fin.le_def]
  tauto

/-- The ports of a class ascend, so those before p are the ones that `State.classUpTo` counts with it. -/
theorem State.portsOf_split {s : State} {c : PortClass} {p : PortNo} (member : p ∈ s.portsOf c) :
    ∃ before after, s.portsOf c = before ++ p :: after ∧ s.classUpTo c p = before ++ [p] ∧ p ∉ before ∧ p ∉ after := by
  obtain ⟨before, after, ports⟩ := List.append_of_mem member
  have ascending : (s.portsOf c).Pairwise (· < ·) :=
    List.Pairwise.filter _ (List.Pairwise.filter _ (by decide : allPorts.Pairwise (· < ·)))
  rw [ports, List.pairwise_append, List.pairwise_cons] at ascending
  obtain ⟨-, ⟨above, -⟩, below⟩ := ascending
  have below : ∀ x ∈ before, x < p := fun x mem => below x mem p (List.mem_cons_self ..)
  refine ⟨before, after, ports, ?_, fun mem => lt_irrefl p (below p mem), fun mem => lt_irrefl p (above p mem)⟩
  have kept : before.filter (fun x => decide (x ≤ p)) = before :=
    List.filter_eq_self.mpr fun x mem => decide_eq_true (below x mem).le
  have dropped : after.filter (fun x => decide (x ≤ p)) = [] :=
    List.filter_eq_nil_iff.mpr fun x mem => by simpa using above x mem
  rw [s.classUpTo_eq, ports, List.filter_append, List.filter_cons_of_pos (by simp), kept, dropped]

/-! ### Decisions and restore counters (R176) -/

theorem State.actOnAll_append (s : State) (first last : List (PortNo × Bool)) (d : PortNo × Bool) :
    s.actOnAll (first ++ d :: last) = ((s.actOnAll first).actOn d).actOnAll last := by
  simp [State.actOnAll]

/-- R175: a port with what it adds to the total. -/
def State.withServ (s : State) (p : PortNo) : PortNo × Nat := (p, (s.part p).pServ)

theorem State.chooseShared_eq (s : State) (c : PortClass) (allocation : Nat) :
    s.chooseShared c allocation = s.actOnAll (choosePorts allocation 0 ((s.portsOf c).map s.withServ)) := rfl

theorem State.map_fst_withServ (s : State) (l : List PortNo) : (l.map s.withServ).map Prod.fst = l := by
  simp [State.withServ, Function.comp_def]

/-- R175: a port of the class has one decision among those acted on, whether the sum up to it stays within the
allocation. -/
theorem State.chooseShared_split {s : State} {c : PortClass} {p : PortNo} (member : p ∈ s.portsOf c) (allocation : Nat) :
    ∃ first last, p ∉ first.map Prod.fst ∧ p ∉ last.map Prod.fst ∧
      s.chooseShared c allocation = ((s.actOnAll first).actOn
        (p, decide (((s.classUpTo c p).map fun x => (s.part x).pServ).sum ≤ allocation))).actOnAll last := by
  obtain ⟨before, after, ports, upTo, notBefore, notAfter⟩ := State.portsOf_split member
  obtain ⟨first, last, heads, tails, walk⟩ :=
    choosePorts_split allocation 0 (before.map s.withServ) (after.map s.withServ) p (s.part p).pServ
  rw [s.map_fst_withServ] at heads tails
  refine ⟨first, last, heads ▸ notBefore, tails ▸ notAfter, ?_⟩
  have sum : ((s.classUpTo c p).map fun x => (s.part x).pServ).sum =
      0 + (((before.map s.withServ).map Prod.snd).sum + (s.part p).pServ) := by
    simp [upTo, State.withServ, Function.comp_def]
  rw [s.chooseShared_eq, ports, List.map_append, List.map_cons, State.withServ, walk, State.actOnAll_append, sum]

/-- R175: the decisions acted on are for the ports of the class. -/
theorem State.chooseShared_eq_of_notMember {s : State} {c : PortClass} {p : PortNo} (other : p ∉ s.portsOf c)
    (allocation : Nat) : ∃ ds, p ∉ ds.map Prod.fst ∧ s.chooseShared c allocation = s.actOnAll ds := by
  refine ⟨_, ?_, s.chooseShared_eq c allocation⟩
  rwa [map_fst_choosePorts, s.map_fst_withServ]

/-- R176: a decision changes in the power manager only the restore counter of its port. -/
theorem State.actOn_pmg (s : State) (d : PortNo × Bool) :
    (s.actOn d).pmg = (s.setRestore d.1 (if d.2 then min 2 (s.restoreOf d.1 + 1) else 0)).pmg := by
  unfold State.actOn
  dsimp only
  split
  · simp [apply_ite State.pmg]
  · split <;> simp

theorem State.restoreOf_of_pmg {s t : State} (same : t.pmg = s.pmg) (p : PortNo) : t.restoreOf p = s.restoreOf p := by
  simp [State.restoreOf, same]

theorem State.restoreOf_setRestore_ne (s : State) {p x : PortNo} (n : Nat) (other : p ≠ x) :
    (s.setRestore p n).restoreOf x = s.restoreOf x := by
  simp [State.restoreOf, tget_tput_ne _ _ other]

theorem State.restoreOf_actOn (s : State) (p : PortNo) (admitted : Bool) :
    (s.actOn (p, admitted)).restoreOf p = if admitted then min 2 (s.restoreOf p + 1) else 0 := by
  rw [State.restoreOf_of_pmg (s.actOn_pmg _), State.restoreOf_setRestore]

theorem State.restoreOf_actOn_ne (s : State) {d : PortNo × Bool} {p : PortNo} (other : d.1 ≠ p) :
    (s.actOn d).restoreOf p = s.restoreOf p := by
  rw [State.restoreOf_of_pmg (s.actOn_pmg d), State.restoreOf_setRestore_ne s _ other]

theorem State.restoreOf_actOnAll {p : PortNo} {ds : List (PortNo × Bool)} (others : p ∉ ds.map Prod.fst) (s : State) :
    (s.actOnAll ds).restoreOf p = s.restoreOf p := by
  induction ds generalizing s with
  | nil => rfl
  | cons d ds ih =>
    rw [List.map_cons, List.mem_cons, not_or] at others
    obtain ⟨other, others⟩ := others
    exact (ih others (s.actOn d)).trans (s.restoreOf_actOn_ne (Ne.symm other))

end Sys2Proof.Machine
end

section
/-!
What a shed, a shed at once and a restore do to their port (R116 to R118) where no test stands, and that they reach no
other port: `State.Calm` is what of `State.noTests` the decisions of R176 rest on, and `OnlyPort` is what an action on one
port leaves alone.
-/
namespace Sys2Proof.Machine

/-- No test runs or is suspended, no take waits, nothing is left over, and no LINK cell asks when a port serves. -/
structure State.Calm (s : State) : Prop where
  settled : s.settled = true
  running : s.tsq.running = none
  stack : s.tsq.stack = []
  link : ∀ p, (s.cell p .link).mode.isLevel = false
  noTake : ∀ p, (s.port p).takeWaiting = false

/-- t comes from s by an action on port p that no other port and no test notices. -/
structure OnlyPort (p : PortNo) (s t : State) : Prop where
  port : ∀ x, p ≠ x → t.port x = s.port x
  held : ∀ x, p ≠ x → t.held x = s.held x
  take : (t.port p).takeWaiting = true → (s.port p).takeWaiting = true
  tsq : t.tsq = s.tsq
  leave : t.leu.leaveDue = s.leu.leaveDue
  mode : ∀ x, (t.cell x .link).mode = (s.cell x .link).mode

theorem OnlyPort.refl (p : PortNo) (s : State) : OnlyPort p s s :=
  ⟨fun _ _ => rfl, fun _ _ => rfl, id, rfl, rfl, fun _ => rfl⟩

/-- Chains, the last action first. -/
theorem OnlyPort.after {p : PortNo} {s t u : State} (b : OnlyPort p t u) (a : OnlyPort p s t) : OnlyPort p s u where
  port x other := (b.port x other).trans (a.port x other)
  held x other := (b.held x other).trans (a.held x other)
  take := a.take ∘ b.take
  tsq := b.tsq.trans a.tsq
  leave := b.leave.trans a.leave
  mode x := (b.mode x).trans (a.mode x)

theorem OnlyPort.ite {c : Prop} [Decidable c] {p : PortNo} {s t u : State} (ht : OnlyPort p s t) (hu : OnlyPort p s u) :
    OnlyPort p s (if c then t else u) := by
  split
  · exact ht
  · exact hu

theorem OnlyPort.calm {p : PortNo} {s t : State} (only : OnlyPort p s t) (calm : s.Calm) : t.Calm where
  settled := by
    have settled := calm.settled
    rwa [State.settled, ← only.leave, ← only.tsq] at settled
  running := only.tsq ▸ calm.running
  stack := only.tsq ▸ calm.stack
  link x := only.mode x ▸ calm.link x
  noTake x := by
    by_cases own : p = x
    · subst own
      exact Bool.eq_false_iff.mpr fun waits => Bool.eq_false_iff.mp (calm.noTake p) (only.take waits)
    · rw [only.port x own]
      exact calm.noTake x

/-! ### The updates an action is made of -/

section
variable (s : State) (p : PortNo)

theorem State.setPort_only (r : PortRecord) (take : r.takeWaiting = true → (s.port p).takeWaiting = true) :
    OnlyPort p s (s.setPort p r) where
  port _ other := s.port_setPort_ne r other
  held _ _ := rfl
  take waits := take (by rwa [State.port_setPort] at waits)
  tsq := rfl
  leave := rfl
  mode _ := rfl

theorem State.setQueue_only (q : PqmPort) : OnlyPort p s (s.setPq p q) where
  port _ _ := rfl
  held _ other := by
    simp only [State.held, State.queued, s.pq_setPq_ne q other]
    rfl
  take := id
  tsq := rfl
  leave := rfl
  mode _ := rfl

@[simp] theorem State.openFrontEnd_uls : (s.openFrontEnd p).uls = s.uls := by
  unfold State.openFrontEnd
  dsimp only
  split <;> rfl

@[simp] theorem State.openFrontEnd_pqm : (s.openFrontEnd p).pqm = s.pqm := by
  unfold State.openFrontEnd
  dsimp only
  split <;> rfl

theorem State.openFrontEnd_only : OnlyPort p s (s.openFrontEnd p) := by
  have opened := s.setPort_only p { s.port p with relayFrontEnd := false } id
  unfold State.openFrontEnd
  dsimp only
  split
  · exact ⟨opened.port, opened.held, opened.take, opened.tsq, opened.leave, opened.mode⟩
  · exact opened

theorem State.clearMapOf_only : OnlyPort p s (s.clearMapOf p) :=
  ⟨fun _ _ => rfl, fun _ _ => rfl, id, rfl, rfl, fun _ => rfl⟩

theorem State.clearExit_only : OnlyPort p s (s.clearExit p) where
  port _ _ := rfl
  held _ _ := rfl
  take := id
  tsq := rfl
  leave := rfl
  mode x := by
    by_cases own : p = x
    · subst own
      simp [State.clearExit, State.cell, LeuPort.cell]
    · simp [State.clearExit, State.cell, s.line_setLine_ne _ own]

theorem State.freeBuffers_only (n : Nat) : OnlyPort p s (s.freeBuffers n) :=
  ⟨fun _ _ => rfl, fun _ _ => rfl, id, rfl, rfl, fun _ => rfl⟩

theorem State.discardRetransmits_only : OnlyPort p s (s.discardRetransmits p) := by
  refine (State.freeBuffers_only _ p _).after ⟨fun _ _ => rfl, fun x other => ?_, id, rfl, rfl, fun _ => rfl⟩
  have kept : ((s.uls.retransmit.filter fun e => decide (e.port ≠ p)).filter fun e => decide (e.port = x)) =
      s.uls.retransmit.filter fun e => decide (e.port = x) := by
    rw [List.filter_filter]
    refine List.filter_congr fun e _ => ?_
    by_cases mine : e.port = x <;> simp [mine, Ne.symm other]
  simp only [State.held, State.retransmits, State.setUls_uls, kept]
  rfl

/-- R104: the discarded queues are those of the one port. -/
theorem State.discardQueues_only : OnlyPort p s (s.discardQueues p) := by
  unfold State.discardQueues
  refine (State.clearMapOf_only _ p).after ((State.setQueue_only _ p _).after ?_)
  exact (State.discardRetransmits_only _ p).after ((State.freeBuffers_only _ p _).after (s.setQueue_only p _))

end

/-! ### Entering a state -/

/-- R130: a LINK cell without a level mode does not ask. -/
theorem State.levelAsk_of_notLevel {s : State} {p : PortNo} {c : Condition} (edge : (s.cell p c).mode.isLevel = false) :
    s.levelAsk p c = s := by
  simp [State.levelAsk, State.levelMayAsk, edge]

section
variable {s : State} {p : PortNo} (edge : (s.cell p .link).mode.isLevel = false)
include edge

theorem OnlyPort.levelAskUnless {c : Bool} {t : State} (only : OnlyPort p s t) :
    OnlyPort p s (if c then t else t.levelAsk p .link) := by
  rw [State.levelAsk_of_notLevel (by rwa [only.mode]), ite_self]
  exact only

theorem State.enterAs_only (r : PortRecord) (st : PortState) : OnlyPort p s (s.enterAs p r st) := by
  unfold State.enterAs
  refine OnlyPort.levelAskUnless edge ?_
  refine .after (.ite (State.discardQueues_only _ p) (.refl p _)) ?_
  refine .after (.ite (State.clearExit_only _ p) (.refl p _)) ?_
  refine .after (.ite (.refl p _) (State.clearMapOf_only _ p)) ?_
  refine .after (.ite (.refl p _) (State.setQueue_only _ p _)) ?_
  refine .after (State.setPort_only _ p _ fun waits => nomatch waits) ?_
  exact .ite (s.openFrontEnd_only p) (.refl p s)

theorem State.enter_only (st : PortState) : OnlyPort p s (s.enter p st) := State.enterAs_only edge (s.port p) st

theorem State.startDrain_only (reason : DrainReason) : OnlyPort p s (s.startDrain p reason) :=
  (State.setQueue_only _ p _).after (State.enter_only edge _)

/-- R100: a drain that starts leaves the port its segments. -/
theorem State.startDrain_held (reason : DrainReason) : (s.startDrain p reason).held p = s.held p := by
  have opened := (State.setPort_only _ p ((s.port p).entered (.draining reason)) fun waits => nomatch waits).after
    (s.openFrontEnd_only p)
  have silent := State.levelAsk_of_notLevel ((congrArg SenseMode.isLevel (opened.mode p)).trans edge)
  have entered : s.enter p (.draining reason) =
      (s.openFrontEnd p).setPort p ((s.port p).entered (.draining reason)) := by
    simp [State.enter, State.enterAs, PortState.isDraining, PortState.serving, silent]
  simp [State.startDrain, entered, State.held, State.queued, State.retransmits, State.pq]

end

end Sys2Proof.Machine
end

section
/-!
The requests of the power manager (R116 to R118) and its decisions (R176) where no test stands.
-/
namespace Sys2Proof.Machine

/-! ### The requests reach one port -/

@[simp] theorem State.enterAs_port_state (s : State) (p : PortNo) (r : PortRecord) (st : PortState) :
    ((s.enterAs p r st).port p).state = st := by
  rw [State.enterAs_port]
  rfl

@[simp] theorem State.enter_port_state (s : State) (p : PortNo) (st : PortState) : ((s.enter p st).port p).state = st :=
  s.enterAs_port_state p _ st

@[simp] theorem State.startDrain_port_state (s : State) (p : PortNo) (reason : DrainReason) :
    ((s.startDrain p reason).port p).state = .draining reason := by
  rw [State.startDrain_port]
  rfl

theorem PortState.serving_iff (st : PortState) : st.serving = true ↔ st = .inService ∨ ∃ reason, st = .draining reason := by
  cases st <;> simp [PortState.serving]

theorem State.setReturn_port (s : State) (p : PortNo) (x : Option ReturnState) :
    (s.setReturn p x).port p = { s.port p with returnState := x } := s.port_setPort p _

theorem State.setShedPending_only (s : State) (p : PortNo) (x : Bool) : OnlyPort p s (s.setShedPending p x) :=
  s.setPort_only p _ id

theorem State.setReturn_only (s : State) (p : PortNo) (x : Option ReturnState) : OnlyPort p s (s.setReturn p x) :=
  s.setPort_only p _ id

section
variable {s : State} {p : PortNo} (edge : (s.cell p .link).mode.isLevel = false)
include edge

theorem State.shed_only : OnlyPort p s (s.shed p) := by
  unfold State.shed
  split
  next => exact .refl p s
  next =>
    have drain := State.startDrain_only edge .shed
    exact .ite ((State.enter_only (by rwa [drain.mode]) .off).after drain) drain
  next => exact s.setShedPending_only p true
  next => exact .refl p s
  next => exact .refl p s
  next => exact .ite (s.setReturn_only p _) (s.setShedPending_only p true)
  next => exact s.setReturn_only p _

theorem State.shedAtOnce_only : OnlyPort p s (s.shedAtOnce p).1 := by
  unfold State.shedAtOnce
  dsimp only
  split
  next => exact .refl p s
  next => exact State.enter_only edge .off
  next => exact State.enterAs_only edge _ .off
  next =>
    rw [apply_ite Prod.fst]
    exact .ite (State.enterAs_only edge _ .isolated) (State.enterAs_only edge _ .off)
  next => exact s.setReturn_only p _
  next => exact .refl p s

/-- R118: a restore that finds no waiting take. -/
theorem State.restore_only (k : TestKind) (noTake : (s.port p).takeWaiting = false) : OnlyPort p s (s.restore p k).1 := by
  unfold State.restore
  dsimp only
  split
  next => exact .refl p s
  next => exact .refl p s
  next => exact s.setShedPending_only p false
  next =>
    rw [noTake]
    exact State.enter_only edge .inService
  next =>
    rw [apply_ite Prod.fst]
    exact .ite (s.setReturn_only p _) (s.setShedPending_only p false)
  next => exact s.setReturn_only p _
  next => exact State.enter_only edge .inService

end

/-- R118: without a waiting take a restore tells the TSQ nothing. -/
theorem State.restore_answer {s : State} {p : PortNo} (noTake : (s.port p).takeWaiting = false) (k : TestKind) :
    (s.restore p k).2 = none := by
  unfold State.restore
  dsimp only
  split <;> simp [noTake, apply_ite Prod.snd]

theorem State.doRestore_eq {s : State} {p : PortNo} (noTake : (s.port p).takeWaiting = false) :
    s.doRestore p = (s.restore p s.runningKind).1 := by
  have silent := State.restore_answer noTake s.runningKind
  unfold State.doRestore
  split
  next t answer => rw [answer]
  next t ended answer => rw [answer] at silent; cases silent

/-- R149: a withdrawn take without a test is nobody's. -/
theorem State.withdrawnNotice_eq {s : State} (running : s.tsq.running = none) (stack : s.tsq.stack = []) (p : PortNo) :
    s.withdrawnNotice p = s := by
  simp [State.withdrawnNotice, running, stack]

section
variable {s : State} (calm : s.Calm)
include calm

theorem State.Calm.doShedAtOnce_eq (p : PortNo) : s.doShedAtOnce p = (s.shedAtOnce p).1 := by
  have after := (State.shedAtOnce_only (calm.link p)).calm calm
  simp only [State.doShedAtOnce, State.withdrawnNotice_eq after.running after.stack, ite_self]

theorem State.Calm.doRestore_only (p : PortNo) : OnlyPort p s (s.doRestore p) := by
  rw [State.doRestore_eq (calm.noTake p)]
  exact State.restore_only (calm.link p) _ (calm.noTake p)

end

/-! ### A decision (R176) -/

theorem State.setRestore_only (s : State) (p : PortNo) (n : Nat) : OnlyPort p s (s.setRestore p n) :=
  ⟨fun _ _ => rfl, fun _ _ => rfl, id, rfl, rfl, fun _ => rfl⟩

section
variable {s : State} (calm : s.Calm)
include calm

theorem State.Calm.setRestore (p : PortNo) (n : Nat) : (s.setRestore p n).Calm := (s.setRestore_only p n).calm calm

/-- R176: an admitted port whose restore counter has reached 2 is sent a restore, and the event closes with it. -/
theorem State.Calm.actOn_admitted (p : PortNo) :
    s.actOn (p, true) = if 1 ≤ s.restoreOf p then (s.setRestore p 2).doRestore p else s.setRestore p 1 := by
  by_cases counted : 1 ≤ s.restoreOf p
  · have full : min 2 (s.restoreOf p + 1) = 2 := by omega
    have restored := ((calm.setRestore p 2).doRestore_only p).calm (calm.setRestore p 2)
    simp only [State.actOn, full, if_true, if_pos counted, State.settleEvent_of _ restored.settled]
  · have first : min 2 (s.restoreOf p + 1) = 1 := by omega
    simp [State.actOn, first, counted]

theorem State.Calm.actOn_refused (p : PortNo) : s.actOn (p, false) =
    if s.pmg.tier = 4 then ((s.setRestore p 0).shedAtOnce p).1 else (s.setRestore p 0).shed p := by
  rw [← (calm.setRestore p 0).doShedAtOnce_eq]
  rfl

theorem State.Calm.actOn_only (d : PortNo × Bool) : OnlyPort d.1 s (s.actOn d) := by
  obtain ⟨p, admitted⟩ := d
  cases admitted
  case true =>
    rw [calm.actOn_admitted]
    exact .ite (((calm.setRestore p 2).doRestore_only p).after (s.setRestore_only p 2)) (s.setRestore_only p 1)
  case false =>
    rw [calm.actOn_refused]
    have edge := (calm.setRestore p 0).link p
    exact .ite ((State.shedAtOnce_only edge).after (s.setRestore_only p 0))
      ((State.shed_only edge).after (s.setRestore_only p 0))

theorem State.Calm.actOnAll (ds : List (PortNo × Bool)) : (s.actOnAll ds).Calm := by
  induction ds generalizing s with
  | nil => exact calm
  | cons d ds ih => exact ih ((calm.actOn_only d).calm calm)

/-- Decisions for other ports leave a port its record and its segments. -/
theorem State.Calm.actOnAll_others {p : PortNo} {ds : List (PortNo × Bool)} (others : p ∉ ds.map Prod.fst) :
    (s.actOnAll ds).port p = s.port p ∧ (s.actOnAll ds).held p = s.held p := by
  induction ds generalizing s with
  | nil => exact ⟨rfl, rfl⟩
  | cons d ds ih =>
    rw [List.map_cons, List.mem_cons, not_or] at others
    obtain ⟨other, others⟩ := others
    have only := calm.actOn_only d
    obtain ⟨port, held⟩ := ih (only.calm calm) others
    exact ⟨port.trans (only.port p (Ne.symm other)), held.trans (only.held p (Ne.symm other))⟩

/-- R118, R176: what an admitted port's record becomes. -/
theorem State.Calm.actOn_portRestored (p : PortNo) : s.portRestored (s.actOn (p, true)) p := by
  have restored : 1 ≤ s.restoreOf p →
      s.actOn (p, true) = ((s.setRestore p 2).restore p (s.setRestore p 2).runningKind).1 := fun counted => by
    rw [calm.actOn_admitted, if_pos counted, State.doRestore_eq ((calm.setRestore p 2).noTake p)]
  have record : (s.setRestore p 2).port p = s.port p := rfl
  refine ⟨fun kept => ?_, fun counted isolated => ?_, fun counted away => ?_⟩
  · by_cases counted : 1 ≤ s.restoreOf p
    · have serving : (s.port p).state = .inService := kept.resolve_left (by omega)
      rw [restored counted]
      simp only [State.restore, record, serving]
    · rw [calm.actOn_admitted, if_neg counted]
      rfl
  · rw [restored counted]
    simp only [State.restore, record, isolated, State.setReturn_port]
  · rw [restored counted]
    obtain off | draining := away
    · simp [State.restore, record, off]
    · simp [State.restore, record, draining, calm.noTake p]

/-- R116, R117, R176: what a refused port's record becomes. -/
theorem State.Calm.actOn_portShed (p : PortNo) : s.portShed (s.actOn (p, false)) p := by
  have tier : (s.actOn (p, false)).pmg.tier = s.pmg.tier := by simp [s.actOn_pmg]
  have record : (s.setRestore p 0).port p = s.port p := rfl
  have held : ((s.setRestore p 0).startDrain p .shed).held p = s.held p :=
    State.startDrain_held ((calm.setRestore p 0).link p) .shed
  simp only [State.portShed, tier]
  rw [calm.actOn_refused]
  by_cases worst : s.pmg.tier = 4
  · rw [if_pos worst]
    refine ⟨fun off => ?_, fun isolated => ?_, fun _ serving => ?_, absurd worst, absurd worst⟩
    · simp only [State.shedAtOnce, record, off]
    · simp only [State.shedAtOnce, record, isolated, State.setReturn_port]
    · obtain inService | ⟨reason, draining⟩ := (PortState.serving_iff _).mp serving
      · simp [State.shedAtOnce, record, inService]
      · simp [State.shedAtOnce, record, draining]
  · rw [if_neg worst]
    refine ⟨fun off => ?_, fun isolated => ?_, fun tier4 => absurd tier4 worst, fun _ serving => ?_, fun _ draining => ?_⟩
    · simp only [State.shed, record, off]
    · simp only [State.shed, record, isolated, State.setReturn_port]
    · simp [State.shed, record, serving, held, apply_ite fun t : State => (t.port p).state]
    · simp only [State.shed, record, draining]

end

end Sys2Proof.Machine
end

section
/-!
The completion of a power share (R174, R175): what it leaves of the other blocks, and the three kinds of ports.
-/
namespace Sys2Proof.Machine

/-! ### The frame -/

/-- No move changes the power manager but for its restore counters. -/
theorem Moves.pmg {s t : State} (moves : Moves s t) : t.pmg = { s.pmg with restore := t.pmg.restore } := by
  have same : { t.pmg with restore := Pmg.powerOn.restore } = { s.pmg with restore := Pmg.powerOn.restore } :=
    congrArg State.pmg moves.fixed
  exact congrArg (fun g : Pmg => { g with restore := t.pmg.restore }) same

theorem Moves.au {s t : State} (moves : Moves s t) : t.au = s.au :=
  show t.fixed.au = s.fixed.au from congrArg State.au moves.fixed

/-- R174: a completion for the outstanding reference is taken. -/
theorem State.takePowerShare_of_outstanding {s : State} {q : AuRequest} {c : PortClass}
    (outstanding : s.pmg.powerRef = some (q.reference, c)) :
    s.takePowerShare q =
      (s.setPmg { s.pmg with powerRef := none }).chooseShared c (q.allocationTo s.csu.address) := by
  simp [State.takePowerShare, outstanding]

/-- R174: any other completion is disregarded. -/
theorem State.takePowerShare_of_other {s : State} {q : AuRequest}
    (other : ∀ c, s.pmg.powerRef ≠ some (q.reference, c)) : s.takePowerShare q = s := by
  unfold State.takePowerShare
  split
  next reference c outstanding =>
    exact if_neg fun same : q.reference = reference => other c (by rw [outstanding, same])
  next => rfl

theorem exec_powerShareCompletion {s : State} {q : AuRequest} (inFlight : s.au.inFlight = some q)
    (kind : q.kind = .powerShare) :
    exec .powerShareCompletion s = .next (s.takePowerShare q).nextAu.settleEvent := by
  have found : s.inFlightOf .powerShare = some q := by simp [State.inFlightOf, inFlight, kind]
  show execPowerShareCompletion s = _
  simp only [execPowerShareCompletion, found]

/-! ### The ports -/

/-- No test waits for a port, so no take does. -/
theorem State.takeWaiting_of_noTests {s : State} (free : s.noTests) (p : PortNo) : (s.port p).takeWaiting = false := by
  obtain ⟨-, running, -, stack, -, -, -, ports, tests⟩ := free
  have ok : (s.port p).ok = true := by
    simp only [State.portsOk, Bool.and_eq_true] at ports
    exact allPorts_all.mp ports.1.1 p
  have apart : (s.port p).belongs = false := by
    simp only [State.testsOwnPorts, State.testPorts, running, stack, Bool.and_eq_true] at tests
    simpa using allPorts_all.mp tests.1.2 p
  refine Bool.eq_false_iff.mpr fun waits => ?_
  obtain ⟨⟨-, -, -, -, -, drains⟩, -⟩ := (PortRecord.ok_iff _).mp ok
  simp [PortRecord.belongs, drains waits, waits] at apart

theorem State.calm_of_noTests {s : State} (free : s.noTests) : s.Calm := by
  have noTake := State.takeWaiting_of_noTests free
  obtain ⟨settled, running, -, stack, -, -, link, -, -⟩ := free
  exact ⟨settled, running, stack, link, noTake⟩

theorem State.Calm.setPmg {s : State} (calm : s.Calm) (g : Pmg) : (s.setPmg g).Calm :=
  ⟨calm.settled, calm.running, calm.stack, calm.link, calm.noTake⟩

/-- R176: the record of p after a decision that others come before and after, read off the decision alone. -/
theorem State.Calm.actOnAll_around {s : State} (calm : s.Calm) {p : PortNo} {first last : List (PortNo × Bool)}
    (before : p ∉ first.map Prod.fst) (after : p ∉ last.map Prod.fst) (admitted : Bool) :
    (s.actOnAll first).Calm ∧ (s.actOnAll first).port p = s.port p ∧ (s.actOnAll first).held p = s.held p ∧
      (((s.actOnAll first).actOn (p, admitted)).actOnAll last).port p =
        ((s.actOnAll first).actOn (p, admitted)).port p := by
  have reached := calm.actOnAll first
  obtain ⟨port, held⟩ := calm.actOnAll_others before
  exact ⟨reached, port, held, (((reached.actOn_only (p, admitted)).calm reached).actOnAll_others after).1⟩

section
variable {s : State} {c : PortClass} {p : PortNo} {allocation : Nat}

theorem State.chooseShared_moves (s : State) (c : PortClass) (allocation : Nat) : Moves s (s.chooseShared c allocation) :=
  s.actOnAll_moves _

/-- R175, R176: the restore counter of a port of the class. -/
theorem State.restoreOf_chooseShared (member : p ∈ s.portsOf c) : (s.chooseShared c allocation).restoreOf p =
    if ((s.classUpTo c p).map fun x => (s.part x).pServ).sum ≤ allocation then min 2 (s.restoreOf p + 1) else 0 := by
  obtain ⟨first, last, before, after, split⟩ := State.chooseShared_split member allocation
  rw [split, State.restoreOf_actOnAll after, State.restoreOf_actOn, State.restoreOf_actOnAll before]
  simp only [decide_eq_true_eq]

theorem State.restoreOf_chooseShared_other (other : p ∉ s.portsOf c) :
    (s.chooseShared c allocation).restoreOf p = s.restoreOf p := by
  obtain ⟨ds, others, chosen⟩ := State.chooseShared_eq_of_notMember other allocation
  rw [chosen, State.restoreOf_actOnAll others]

section
variable (calm : s.Calm)
include calm

theorem State.Calm.chooseShared (c : PortClass) (allocation : Nat) : (s.chooseShared c allocation).Calm :=
  calm.actOnAll _

theorem State.Calm.chooseShared_other (other : p ∉ s.portsOf c) : (s.chooseShared c allocation).port p = s.port p := by
  obtain ⟨ds, others, chosen⟩ := State.chooseShared_eq_of_notMember other allocation
  rw [chosen]
  exact (calm.actOnAll_others others).1

theorem State.Calm.chooseShared_portRestored (member : p ∈ s.portsOf c)
    (within : ((s.classUpTo c p).map fun x => (s.part x).pServ).sum ≤ allocation) :
    s.portRestored (s.chooseShared c allocation) p := by
  obtain ⟨first, last, before, after, split⟩ := State.chooseShared_split member allocation
  rw [decide_eq_true within] at split
  obtain ⟨reached, port, -, kept⟩ := calm.actOnAll_around before after true
  have decided := reached.actOn_portRestored p
  rw [State.portRestored, State.restoreOf_actOnAll before, port] at decided
  rwa [State.portRestored, split, kept]

theorem State.Calm.chooseShared_portShed (member : p ∈ s.portsOf c)
    (exceeds : ¬ ((s.classUpTo c p).map fun x => (s.part x).pServ).sum ≤ allocation) :
    s.portShed (s.chooseShared c allocation) p := by
  obtain ⟨first, last, before, after, split⟩ := State.chooseShared_split member allocation
  rw [decide_eq_false exceeds] at split
  obtain ⟨reached, port, held, kept⟩ := calm.actOnAll_around before after false
  have tier := congrArg Pmg.tier (State.actOnAll_moves ((s.actOnAll first).actOn (p, false)) last).pmg
  have decided := reached.actOn_portShed p
  rw [State.portShed, port, held] at decided
  rwa [State.portShed, split, kept, tier]

end

end

/-- Settles O55: the completion is `State.chooseShared`, whose decision for a port of the class is `choosePorts_split`, and
what the decisions leave is `State.restoreOf_chooseShared` and, without tests, `State.Calm.chooseShared_portRestored` and
`State.Calm.chooseShared_portShed`; the close of the event changes no restore counter, and without tests nothing. -/
theorem powerShareChoosesAPrefix : Obligations.PowerShareChoosesAPrefix := by
  intro s q settled inFlight kind
  rw [exec_powerShareCompletion inFlight kind]
  refine ⟨fun c outstanding => ?_, fun other => ?_⟩
  · rw [State.takePowerShare_of_outstanding outstanding]
    let u := s.setPmg { s.pmg with powerRef := none }
    let v := u.chooseShared c (q.allocationTo s.csu.address)
    have chosen : Moves u v := u.chooseShared_moves c _
    have au : v.nextAu.settleEvent.au = s.au.next :=
      (State.settleEvent_moves _).au.trans (congrArg Au.next chosen.au)
    have pmg : v.nextAu.settleEvent.pmg = v.pmg := by rw [State.settleEvent_pmg, State.nextAu_pmg]
    have counter := State.restoreOf_of_pmg pmg
    have calm : s.noTests → u.Calm := fun free => (State.calm_of_noTests free).setPmg _
    have closed : s.noTests → v.nextAu.settleEvent = v.nextAu := fun free =>
      State.settleEvent_of _ ((calm free).chooseShared c _).settled
    refine ⟨v.nextAu.settleEvent, rfl, au, ?_, ?_, ?_, fun p => ⟨fun member within => ⟨?_, fun free => ?_⟩,
      fun member exceeds => ⟨?_, fun free => ?_⟩, fun other => ⟨?_, fun free => ?_⟩⟩⟩
    · rw [pmg, chosen.pmg]; rfl
    · rw [pmg, chosen.pmg]; rfl
    · rw [pmg, chosen.pmg]; rfl
    · rw [counter]
      exact (State.restoreOf_chooseShared ((u.mem_portsOf c p).mpr member)).trans (if_pos within)
    · rw [closed free]
      exact (calm free).chooseShared_portRestored ((u.mem_portsOf c p).mpr member) within
    · rw [counter]
      exact (State.restoreOf_chooseShared ((u.mem_portsOf c p).mpr member)).trans (if_neg exceeds)
    · rw [closed free]
      exact (calm free).chooseShared_portShed ((u.mem_portsOf c p).mpr member) exceeds
    · rw [counter]
      exact State.restoreOf_chooseShared_other fun member => other ((u.mem_portsOf c p).mp member)
    · rw [closed free]
      exact (calm free).chooseShared_other fun member => other ((u.mem_portsOf c p).mp member)
  · rw [State.takePowerShare_of_other other, State.settleEvent_of s.nextAu settled]

end Sys2Proof.Machine
end

section
/-!
SUPPORT. What the configuration gives the ports and no later operation of an event touches: which ports are fitted (R121),
and the sense mode and priority of every cell (R123). `State.setup` is these two, and each operation that the entry to RUN
or the close of an event reaches has one lemma that says it keeps them.
-/
namespace Sys2Proof.Machine

/-- R123: the sense mode and the priority of each cell. -/
def State.settings (s : State) (p : PortNo) (c : Condition) : CellSetting := ⟨(s.cell p c).mode, (s.cell p c).priority⟩

/-- R121, R123: the fitted ports, and the settings of the cells. -/
def State.setup (s : State) : (PortNo → Bool) × (PortNo → Condition → CellSetting) := (s.fitted, s.settings)

theorem State.fitted_of_setup {s t : State} (same : t.setup = s.setup) (p : PortNo) : t.fitted p = s.fitted p :=
  congrFun (congrArg Prod.fst same) p

theorem State.settings_of_setup {s t : State} (same : t.setup = s.setup) : t.settings = s.settings :=
  congrArg Prod.snd same

theorem State.fitted_iff (s : State) (p : PortNo) : s.fitted p = true ↔ (s.port p).state ≠ .unfitted := decide_eq_true_iff

theorem State.settings_of_leu {s t : State} (leu : t.leu = s.leu) : t.settings = s.settings := by
  unfold State.settings State.cell State.line
  rw [leu]

theorem State.setup_of_ptc {s t : State} (ptc : t.ptc = s.ptc) (leu : t.leu = s.leu) : t.setup = s.setup :=
  Prod.ext (funext fun p => by simp only [State.setup, State.fitted, State.port_of_ptc ptc]) (State.settings_of_leu leu)

/-- A fold keeps what each of its operations keeps. -/
theorem foldl_keeps {α β : Type} {f : State → α → State} {read : State → β} (keeps : ∀ s a, read (f s a) = read s)
    (l : List α) (s : State) : read (l.foldl f s) = read s := by
  induction l generalizing s with
  | nil => rfl
  | cons a l ih => rw [List.foldl_cons, ih, keeps]

/-! ### The updates the operations are made of -/

@[simp] theorem State.setPbi_setup (s : State) (b : Pbi) : (s.setPbi b).setup = s.setup := rfl

@[simp] theorem State.setMfe_setup (s : State) (m : Mfe) : (s.setMfe m).setup = s.setup := rfl

@[simp] theorem State.setClaim_setup (s : State) (r : ResourceNo) (c : ClaimEntry) : (s.setClaim r c).setup = s.setup := rfl

@[simp] theorem State.setWanted_setup (s : State) (w : Bool) : (s.setWanted w).setup = s.setup := rfl

@[simp] theorem State.setTsq_setup (s : State) (t : Tsq) : (s.setTsq t).setup = s.setup := rfl

@[simp] theorem State.setRunning_setup (s : State) (t : Option RunningTest) : (s.setRunning t).setup = s.setup := rfl

@[simp] theorem State.dueSelect_setup (s : State) : s.dueSelect.setup = s.setup := rfl

@[simp] theorem State.setPq_setup (s : State) (p : PortNo) (q : PqmPort) : (s.setPq p q).setup = s.setup := rfl

@[simp] theorem State.setUls_setup (s : State) (u : Uls) : (s.setUls u).setup = s.setup := rfl

/-- A record that stays fitted, or UNFITTED. -/
@[simp] theorem State.setPort_setup {s : State} {p : PortNo} {r : PortRecord}
    (same : r.state = .unfitted ↔ (s.port p).state = .unfitted) : (s.setPort p r).setup = s.setup := by
  refine Prod.ext (funext fun x => ?_) rfl
  by_cases own : p = x
  · subst own
    simp [State.setup, State.fitted, same]
  · simp [State.setup, State.fitted, s.port_setPort_ne r own]

/-- A line whose cells keep their settings. -/
theorem State.setLine_settings (s : State) (p : PortNo) (l : LeuPort) :
    (s.setLine p l).settings = Function.update s.settings p fun c => ⟨(l.cell c).mode, (l.cell c).priority⟩ := by
  funext x c
  by_cases own : p = x
  · subst own
    simp [State.settings, State.cell]
  · simp [State.settings, State.cell, s.line_setLine_ne l own, Function.update_of_ne (Ne.symm own)]

theorem State.setLine_setup {s : State} {p : PortNo} {l : LeuPort}
    (same : ∀ c, (l.cell c).mode = (s.cell p c).mode ∧ (l.cell c).priority = (s.cell p c).priority) :
    (s.setLine p l).setup = s.setup := by
  refine Prod.ext rfl ((s.setLine_settings p l).trans (Function.update_eq_self_iff.mpr (funext fun c => ?_)))
  obtain ⟨mode, priority⟩ := same c
  rw [mode, priority]
  rfl

/-- A cell that keeps its settings. -/
@[simp] theorem State.setCell_setup {s : State} {p : PortNo} {c : Condition} {x : Cell} (mode : x.mode = (s.cell p c).mode)
    (priority : x.priority = (s.cell p c).priority) : (s.setCell p c x).setup = s.setup := by
  refine State.setLine_setup fun d => ?_
  by_cases own : c = d
  · subst own
    cases c <;> exact ⟨mode, priority⟩
  · cases c <;> cases d <;> simp [State.cell, LeuPort.cell, LeuPort.setCell] at own ⊢

/-! ### Claims -/

theorem State.setup_of_soft {s t : State} (soft : Soft s t) : t.setup = s.setup :=
  State.setup_of_ptc soft.wires.ptc soft.wires.leu

@[simp] theorem State.offer_setup (s : State) (m : Message) : (s.offer m).setup = s.setup :=
  State.setup_of_soft (s.offer_soft m)

@[simp] theorem State.giveUps_setup (l : List ResourceNo) (s : State) : (l.foldl State.giveUp s).setup = s.setup :=
  State.setup_of_soft (State.giveUps_soft l s)

@[simp] theorem State.enforceSource_setup (s : State) : s.enforceSource.setup = s.setup := by
  simp [State.enforceSource, apply_ite State.setup]

@[simp] theorem State.enforce_setup (s : State) : s.enforce.setup = s.setup := by
  rw [State.enforce, State.enforceSource_setup]
  exact foldl_keeps (read := State.setup) (fun s p => by simp [State.enforceAccessOf, apply_ite State.setup]) allPorts s

@[simp] theorem State.releaseAll_setup (s : State) : s.releaseAll.setup = s.setup := by
  simp [State.releaseAll]

@[simp] theorem State.releaseAllBut_setup (s : State) (b : ResourceNo) : (s.releaseAllBut b).setup = s.setup := by
  simp [State.releaseAllBut, apply_ite State.setup]

@[simp] theorem State.beginClaim_setup (s : State) (r : ResourceNo) : (s.beginClaim r).setup = s.setup := by
  unfold State.beginClaim
  dsimp only
  split <;> simp

@[simp] theorem State.beginAccess_setup (s : State) : s.beginAccess.setup = s.setup := by
  simp [State.beginAccess, apply_ite State.setup]

@[simp] theorem State.claimBinder_setup (s : State) (b : ResourceNo) : (s.claimBinder b).setup = s.setup := by
  simp [State.claimBinder, apply_ite State.setup]

@[simp] theorem State.claimAccess_setup (s : State) : s.claimAccess.setup = s.setup := by
  simp [State.claimAccess]

@[simp] theorem State.markWaiting_setup (s : State) (b : ResourceNo) : (s.markWaiting b).setup = s.setup := rfl

@[simp] theorem State.markInUse_setup (s : State) (b : ResourceNo) : (s.markInUse b).setup = s.setup := rfl

@[simp] theorem State.passBinder_setup (s : State) (b : ResourceNo) (next : Option ResourceNo) :
    (s.passBinder b next).setup = s.setup := by
  simp [State.passBinder, apply_ite State.setup]

/-! ### Cells and notices -/

@[simp] theorem State.addEntry_setup (s : State) (e : QueueEntry) : (s.addEntry e).setup = s.setup := rfl

@[simp] theorem State.noticeLeave_setup (s : State) : s.noticeLeave.setup = s.setup := rfl

@[simp] theorem State.noticeDisplaced_setup (s : State) (p : PortNo) (k : TestKind) :
    (s.noticeDisplaced p k).setup = s.setup := by
  unfold State.noticeDisplaced
  split
  · rfl
  · simp [apply_ite State.setup]

@[simp] theorem State.autoRequest_setup (s : State) (p : PortNo) (c : Condition) (prio : Nat) :
    (s.autoRequest p c prio).1.setup = s.setup := by
  unfold State.autoRequest
  split
  · rfl
  split
  · rfl
  split
  · rfl
  split
  · rfl
  split <;> simp

@[simp] theorem State.askCell_setup (s : State) (p : PortNo) (c : Condition) : (s.askCell p c).setup = s.setup := by
  simp [State.askCell]

@[simp] theorem State.askIf_setup (s : State) (r : RequestState) (p : PortNo) (c : Condition) :
    (s.askIf r p c).setup = s.setup := by
  simp [State.askIf, apply_ite State.setup]

@[simp] theorem State.levelAsk_setup (s : State) (p : PortNo) (c : Condition) : (s.levelAsk p c).setup = s.setup := by
  simp [State.levelAsk, apply_ite State.setup]

@[simp] theorem State.levelAskAll_setup (s : State) : s.levelAskAll.setup = s.setup :=
  foldl_keeps (read := State.setup) (fun u (pc : PortNo × Condition) => u.levelAsk_setup pc.1 pc.2) _ s

theorem settleLeaves_setup (n : Nat) (s : State) : (settleLeaves n s).setup = s.setup := by
  induction n generalizing s with
  | zero => rfl
  | succ n ih =>
    unfold settleLeaves
    split
    · rw [ih]
      exact foldl_keeps (read := State.setup) (fun u (pc : PortNo × Condition) => u.askIf_setup .waitRoom pc.1 pc.2) _ _
    · rfl

@[simp] theorem State.settleNotices_setup (s : State) : s.settleNotices.setup = s.setup := settleLeaves_setup 256 s

@[simp] theorem State.noticeStart_setup (s : State) (p : PortNo) (k : TestKind) : (s.noticeStart p k).setup = s.setup := by
  unfold State.noticeStart
  split
  · rfl
  · simp [apply_ite State.setup]

@[simp] theorem State.noticeEnd_setup (s : State) (p : PortNo) (k : TestKind) (origin : Origin) :
    (s.noticeEnd p k origin).setup = s.setup := by
  unfold State.noticeEnd
  split
  · rfl
  · simp [apply_ite State.setup]

/-! ### Ports -/

@[simp] theorem State.openFrontEnd_setup (s : State) (p : PortNo) : (s.openFrontEnd p).setup = s.setup := by
  unfold State.openFrontEnd
  dsimp only
  split <;> simp

@[simp] theorem State.disconnect_setup (s : State) (p : PortNo) : (s.disconnect p).setup = s.setup := by
  simp [State.disconnect]

@[simp] theorem State.connectFrontEnd_setup (s : State) (p : PortNo) : (s.connectFrontEnd p).setup = s.setup := by
  simp [State.connectFrontEnd]

@[simp] theorem State.connectAccess_setup (s : State) (p : PortNo) : (s.connectAccess p).setup = s.setup := by
  simp [State.connectAccess]

@[simp] theorem State.setShedPending_setup (s : State) (p : PortNo) (x : Bool) : (s.setShedPending p x).setup = s.setup := by
  simp [State.setShedPending]

@[simp] theorem State.setTakeWaiting_setup (s : State) (p : PortNo) (x : Bool) : (s.setTakeWaiting p x).setup = s.setup := by
  simp [State.setTakeWaiting]

@[simp] theorem State.setReturn_setup (s : State) (p : PortNo) (x : Option ReturnState) :
    (s.setReturn p x).setup = s.setup := by
  simp [State.setReturn]

@[simp] theorem State.clearExit_setup (s : State) (p : PortNo) : (s.clearExit p).setup = s.setup :=
  State.setLine_setup fun c => by cases c <;> exact ⟨rfl, rfl⟩

@[simp] theorem State.clearDrain_setup (s : State) (p : PortNo) : (s.clearDrain p).setup = s.setup := rfl

@[simp] theorem State.clearMapOf_setup (s : State) (p : PortNo) : (s.clearMapOf p).setup = s.setup := rfl

@[simp] theorem State.discardQueues_setup (s : State) (p : PortNo) : (s.discardQueues p).setup = s.setup := rfl

/-- What follows the new record in an entry keeps the setup. -/
theorem State.enterAs_setup_eq (s : State) (p : PortNo) (r : PortRecord) (st : PortState) :
    (s.enterAs p r st).setup = ((if st ≠ .inTest then s.openFrontEnd p else s).setPort p (r.entered st)).setup := by
  simp [State.enterAs, apply_ite State.setup]

/-- A fitted port that enters a state stays fitted. -/
@[simp] theorem State.enterAs_setup {s : State} {p : PortNo} {st : PortState} (r : PortRecord)
    (before : (s.port p).state ≠ .unfitted) (after : st ≠ .unfitted) : (s.enterAs p r st).setup = s.setup := by
  have entered : (r.entered st).state ≠ .unfitted := after
  rw [State.enterAs_setup_eq]
  split
  · rw [State.setPort_setup (by simp [entered, before, State.openFrontEnd_port]), State.openFrontEnd_setup]
  · exact State.setPort_setup (by simp [entered, before])

@[simp] theorem State.enter_setup {s : State} {p : PortNo} {st : PortState} (before : (s.port p).state ≠ .unfitted)
    (after : st ≠ .unfitted) : (s.enter p st).setup = s.setup :=
  State.enterAs_setup _ before after

@[simp] theorem State.startDrain_setup {s : State} {p : PortNo} (before : (s.port p).state ≠ .unfitted)
    (reason : DrainReason) : (s.startDrain p reason).setup = s.setup := by
  simp [State.startDrain, before]

@[simp] theorem State.take_setup (s : State) (p : PortNo) (k : TestKind) : (s.take p k).1.setup = s.setup := by
  unfold State.take
  split <;> simp [*, apply_ite Prod.fst, apply_ite State.setup]

@[simp] theorem State.shed_setup (s : State) (p : PortNo) : (s.shed p).setup = s.setup := by
  unfold State.shed
  split <;> simp [*, apply_ite State.setup]

@[simp] theorem State.returnPort_setup (s : State) (p : PortNo) : (s.returnPort p).setup = s.setup := by
  unfold State.returnPort
  dsimp only
  split <;> simp [*, apply_ite State.setup]

@[simp] theorem State.shedAtOnce_setup (s : State) (p : PortNo) : (s.shedAtOnce p).1.setup = s.setup := by
  unfold State.shedAtOnce
  dsimp only
  split <;> simp [*, apply_ite Prod.fst, apply_ite State.setup]

@[simp] theorem State.isolate_setup (s : State) (p : PortNo) : (s.isolate p).1.setup = s.setup := by
  unfold State.isolate
  dsimp only
  split <;> simp [*, apply_ite Prod.fst, apply_ite State.setup, PortRecord.isolateWith]

/-! ### The test sequencer -/

@[simp] theorem State.sourceOff_setup (s : State) : s.sourceOff.setup = s.setup := rfl

@[simp] theorem State.startMeasuring_setup (s : State) (k : StepKind) : (s.startMeasuring k).1.setup = s.setup := by
  unfold State.startMeasuring
  split <;> simp [apply_ite Prod.fst, apply_ite State.setup]

@[simp] theorem State.startCalibration_setup (s : State) : s.startCalibration.setup = s.setup := by
  simp [State.startCalibration, apply_ite State.setup]

@[simp] theorem State.offerReport_setup (s : State) (r : ResultRecord) : (s.offerReport r).setup = s.setup := by
  simp [State.offerReport, apply_ite State.setup]

@[simp] theorem State.logResult_setup (s : State) (r : ResultRecord) : (s.logResult r).setup = s.setup := by
  simp [State.logResult]

@[simp] theorem State.dropContext_setup (s : State) (p : PortNo) : (s.dropContext p).setup = s.setup := rfl

@[simp] theorem State.finishTest_setup (s : State) (t : RunningTest) (cause : Option AbortCause) (owned chain : Bool) :
    (s.finishTest t cause owned chain).setup = s.setup := by
  simp [State.finishTest, apply_ite State.setup]

@[simp] theorem State.finishSuspended_setup (s : State) (c : Context) (cause : AbortCause) (owned : Bool) :
    (s.finishSuspended c cause owned).setup = s.setup := by
  simp [State.finishSuspended, apply_ite State.setup]

@[simp] theorem State.enterStep_setup (s : State) (t : RunningTest) : (s.enterStep t).setup = s.setup := by
  unfold State.enterStep
  split <;> simp [apply_ite State.setup]

@[simp] theorem State.goOn_setup (s : State) (t : RunningTest) : (s.goOn t).setup = s.setup := by
  simp [State.goOn, apply_ite State.setup]

@[simp] theorem State.leaveClaim_setup (s : State) (t : RunningTest) : (s.leaveClaim t).setup = s.setup := by
  simp [State.leaveClaim, apply_ite State.setup]

@[simp] theorem State.heldNotice_setup (s : State) (r : ResourceNo) : (s.heldNotice r).setup = s.setup := by
  unfold State.heldNotice
  split <;> simp [apply_ite State.setup]

@[simp] theorem State.requestClaims_setup (s : State) (t : RunningTest) : (s.requestClaims t).setup = s.setup := by
  simp [State.requestClaims, apply_ite State.setup]

@[simp] theorem State.givenNotice_setup (s : State) (p : PortNo) : (s.givenNotice p).setup = s.setup := by
  unfold State.givenNotice
  split <;> simp [apply_ite State.setup]

@[simp] theorem State.startTest_setup (s : State) (e : QueueEntry) : (s.startTest e).setup = s.setup := by
  unfold State.startTest
  dsimp only
  split <;> simp

@[simp] theorem State.resumeTest_setup (s : State) (c : Context) : (s.resumeTest c).setup = s.setup := by
  simp [State.resumeTest, apply_ite State.setup]

theorem runSelect_setup (n : Nat) (s : State) : (runSelect n s).setup = s.setup := by
  induction n generalizing s with
  | zero => rfl
  | succ n ih =>
    unfold runSelect
    dsimp only
    split
    · split
      · rfl
      · split <;> simp [ih]
    · rfl

@[simp] theorem State.settleEvent_setup (s : State) : s.settleEvent.setup = s.setup := by
  simp [State.settleEvent, runSelect_setup]

@[simp] theorem State.withdrawnNotice_setup (s : State) (p : PortNo) : (s.withdrawnNotice p).setup = s.setup := by
  unfold State.withdrawnNotice
  split
  · split <;> simp
  · split
    · split <;> simp
    · rfl

@[simp] theorem State.inForceNotice_setup (s : State) (p : PortNo) : (s.inForceNotice p).setup = s.setup := by
  unfold State.inForceNotice
  split
  · simp [apply_ite State.setup]
  · split
    · simp [apply_ite State.setup]
    · rfl

@[simp] theorem State.doIsolate_setup (s : State) (p : PortNo) : (s.doIsolate p).setup = s.setup := by
  unfold State.doIsolate
  dsimp only
  split <;> simp

@[simp] theorem State.doShedAtOnce_setup (s : State) (p : PortNo) : (s.doShedAtOnce p).setup = s.setup := by
  simp [State.doShedAtOnce, apply_ite State.setup]

end Sys2Proof.Machine
end

section
/-!
SUPPORT. The entry to RUN (R121, R123, R131, R177): what a fold of entries does to each port's record, what no part of it
changes, the settings the cells end with, and, where no cell is a level cell and nothing is left over, that the entry
reaches neither the peer bus nor the tests.
-/
namespace Sys2Proof.Machine

theorem tput_tput {α : Type} {n : Nat} (t : Vector α n) (i : Fin n) (a b : α) : tput (tput t i a) i b = tput t i b := by
  simp [tput]

/-! ### A fold over ports -/

/-- Operations that keep P and change only their own port's record, each where the record meets Q, done port by port. -/
theorem foldl_ports {f : State → PortNo → State} {g : PortNo → PortRecord → PortRecord} {P : State → Prop}
    {Q : PortRecord → Prop}
    (each : ∀ s p, P s → Q (s.port p) → P (f s p) ∧ (f s p).ptc = tput s.ptc p (g p (s.port p)))
    {ps : List PortNo} (once : ps.Nodup) {s : State} (start : P s) (fit : ∀ p ∈ ps, Q (s.port p)) :
    P (ps.foldl f s) ∧ ∀ x, (ps.foldl f s).port x = if x ∈ ps then g x (s.port x) else s.port x := by
  induction ps generalizing s with
  | nil => exact ⟨start, fun x => rfl⟩
  | cons p ps ih =>
    obtain ⟨apart, once⟩ := List.nodup_cons.mp once
    obtain ⟨kept, ptc⟩ := each s p start (fit p List.mem_cons_self)
    have other : ∀ x, p ≠ x → (f s p).port x = s.port x := fun x other => by
      simp [State.port, ptc, tget_tput_ne _ _ other]
    obtain ⟨done, ports⟩ := ih once kept fun x member => by
      rw [other x fun same => apart (same ▸ member)]
      exact fit x (List.mem_cons_of_mem p member)
    refine ⟨done, fun x => (ports x).trans ?_⟩
    by_cases own : p = x
    · subst own
      simp [apart, State.port, ptc]
    · simp [other x own, Ne.symm own]

/-! ### What an entry changes -/

theorem State.enterAs_ptc (s : State) (p : PortNo) (r : PortRecord) (st : PortState) :
    (s.enterAs p r st).ptc = tput s.ptc p (r.entered st) := by
  have silent : ∀ {a : State}, (a.clearExit p).ptc = a.ptc ∧ (a.clearMapOf p).ptc = a.ptc ∧
      (a.clearDrain p).ptc = a.ptc := ⟨rfl, rfl, rfl⟩
  by_cases within : st = .inTest <;>
    simp [State.enterAs, apply_ite State.ptc, State.levelAsk_ptc, State.discardQueues_ptc, silent, within,
      State.openFrontEnd_ptc, tput_tput]

theorem State.enterAs_fixed (s : State) (p : PortNo) (r : PortRecord) (st : PortState) :
    (s.enterAs p r st).fixed = s.fixed := by
  have asked : ∀ a : State, (a.levelAsk p .link).fixed = a.fixed := fun a => (a.levelAsk_moves p .link).fixed
  have exit : ∀ a : State, (a.clearExit p).fixed = a.fixed := fun a => (a.clearExit_moves p).fixed
  have queues : ∀ a : State, (a.discardQueues p).fixed = a.fixed := fun a => (a.discardQueues_lane p).fixed
  have map : ∀ a : State, (a.clearMapOf p).fixed = a.fixed := fun a => (a.clearMapOf_lane p).fixed
  have drain : ∀ a : State, (a.clearDrain p).fixed = a.fixed := fun a => (a.clearDrain_lane p).fixed
  have record : ∀ a : State, (a.setPort p (r.entered st)).fixed = a.fixed := fun _ => rfl
  simp [State.enterAs, apply_ite State.fixed, asked, exit, queues, map, drain, record, State.openFrontEnd_fixed]

/-- A line but for its exit count. -/
def LeuPort.still (l : LeuPort) : LeuPort := { l with exit := 0 }

/-- The state without what an entry changes: the lane and the queues, the port records, the exit counts and the front
end. -/
def State.aside (s : State) : State :=
  { s with
    uls := Uls.powerOn
    pqm := Pqm.powerOn
    ptc := State.reset.ptc
    mfe := Mfe.powerOn
    leu := { s.leu with ports := tmap LeuPort.still s.leu.ports } }

theorem State.still_of_aside {s t : State} (same : t.aside = s.aside) (p : PortNo) :
    (t.line p).still = (s.line p).still := by
  have ports : tmap LeuPort.still t.leu.ports = tmap LeuPort.still s.leu.ports :=
    congrArg (fun u : State => u.leu.ports) same
  have entry := congrArg (tget · p) ports
  rwa [tget_tmap, tget_tmap] at entry

theorem State.cell_of_aside {s t : State} (same : t.aside = s.aside) (p : PortNo) (c : Condition) :
    t.cell p c = s.cell p c := by
  have line := congrArg (fun l : LeuPort => l.cell c) (State.still_of_aside same p)
  cases c <;> exact line

theorem State.fvdLevel_of_aside {s t : State} (same : t.aside = s.aside) (p : PortNo) :
    (t.line p).fvdLevel = (s.line p).fvdLevel := by
  have level := congrArg LeuPort.fvdLevel (State.still_of_aside same p)
  exact level

theorem Lane.aside {s t : State} (lane : Lane s t) : t.aside = s.aside := by
  rw [lane.same]
  rfl

/-- What is read from the part that no entry changes. -/
theorem State.frame_of_aside {s t : State} (same : t.aside = s.aside) :
    t.pbi = s.pbi ∧ t.tsq = s.tsq ∧ t.pvu = s.pvu ∧ t.settled = s.settled := by
  have pbi := congrArg State.pbi same
  have tsq := congrArg State.tsq same
  have pvu := congrArg State.pvu same
  have settled := congrArg State.settled same
  exact ⟨pbi, tsq, pvu, settled⟩

theorem State.openFrontEnd_aside (s : State) (p : PortNo) : (s.openFrontEnd p).aside = s.aside := by
  unfold State.openFrontEnd
  dsimp only
  split <;> rfl

theorem State.clearExit_aside (s : State) (p : PortNo) : (s.clearExit p).aside = s.aside := by
  have ports := tmap_tput LeuPort.still s.leu.ports p { s.line p with exit := 0 } rfl
  simp only [State.aside, State.clearExit, State.setLine, ports]

theorem State.enforceSource_aside (s : State) : s.enforceSource.aside = s.aside := by
  obtain ⟨m, same⟩ := s.enforceSource_same
  rw [same]
  rfl

/-- R130: an entry where the port's LINK cell is no level cell asks for no test. -/
theorem State.enterAs_aside {s : State} {p : PortNo} (edge : (s.cell p .link).mode.isLevel = false) (r : PortRecord)
    (st : PortState) : (s.enterAs p r st).aside = s.aside := by
  have silent : ∀ {c : Bool} {a : State}, a.aside = s.aside →
      (if c then a else a.levelAsk p .link).aside = s.aside := fun same => by
    rw [State.levelAsk_of_notLevel (by rwa [State.cell_of_aside same]), ite_self]
    exact same
  have map : ∀ a : State, (a.clearMapOf p).aside = a.aside := fun a => (a.clearMapOf_lane p).aside
  have drain : ∀ a : State, (a.clearDrain p).aside = a.aside := fun a => (a.clearDrain_lane p).aside
  have queues : ∀ a : State, (a.discardQueues p).aside = a.aside := fun a => (a.discardQueues_lane p).aside
  have record : ∀ a : State, (a.setPort p (r.entered st)).aside = a.aside := fun _ => rfl
  unfold State.enterAs
  refine silent ?_
  simp [apply_ite State.aside, State.openFrontEnd_aside, State.clearExit_aside, map, drain, queues, record]

/-! ### The steps of the entry to RUN -/

/-- R121: the engine is in RUN and its configured ports are IN SERVICE. -/
def State.portsServed (s : State) : State :=
  s.configuredPorts.foldl (fun u p => u.enter p .inService) (s.setCsu { s.csu with state := .run })

/-- R123: the configured ports' cells have taken their modes. -/
def State.modesTaken (s : State) : State := s.configuredPorts.foldl State.takeModes s.portsServed

/-- R131: the ports under a standing foreign voltage are ISOLATED. -/
def State.standingIsolated (s : State) : State := s.configuredPorts.foldl State.isolateStanding s.modesTaken.levelAskAll

/-- R177: the sheds at once of tier 4. -/
def State.shedAtTier4 (s : State) (ps : List PortNo) : State :=
  if s.pmg.tier = 4 then ps.foldl State.doShedAtOnce s else s

theorem State.enterRun_eq (s : State) : s.enterRun = (s.standingIsolated.shedAtTier4 s.configuredPorts).settleEvent := rfl

theorem State.mem_configuredPorts (s : State) (p : PortNo) : p ∈ s.configuredPorts ↔ s.engine.fits p = true := by
  simp [State.configuredPorts, mem_allPorts]

theorem State.nodup_configuredPorts (s : State) : s.configuredPorts.Nodup :=
  List.Nodup.filter _ (by decide)

/-! ### What the entry keeps -/

theorem State.portsServed_fixed (s : State) : s.portsServed.fixed = (s.setCsu { s.csu with state := .run }).fixed :=
  foldl_keeps (read := State.fixed) (fun u p => u.enterAs_fixed p _ _) _ _

theorem State.takeModes_fixed (s : State) (p : PortNo) : (s.takeModes p).fixed = s.fixed := s.setLine_fixed p _ rfl

theorem State.modesTaken_fixed (s : State) : s.modesTaken.fixed = (s.setCsu { s.csu with state := .run }).fixed :=
  (foldl_keeps (read := State.fixed) State.takeModes_fixed _ _).trans s.portsServed_fixed

theorem State.isolateStanding_moves (s : State) (p : PortNo) : Moves s (s.isolateStanding p) :=
  .ite (fun _ => s.doIsolate_moves p) fun _ => .refl s

theorem State.enterRun_moves (s : State) : Moves s.modesTaken s.enterRun := by
  have isolated : Moves s.modesTaken s.standingIsolated :=
    .trans (State.levelAskAll_moves _) (.foldl State.isolateStanding_moves _ _)
  have shed : Moves s.standingIsolated (s.standingIsolated.shedAtTier4 s.configuredPorts) :=
    .ite (fun _ => .foldl State.doShedAtOnce_moves _ _) fun _ => .refl _
  exact .trans isolated (.trans shed (State.settleEvent_moves _))

theorem State.enterRun_fixed (s : State) : s.enterRun.fixed = (s.setCsu { s.csu with state := .run }).fixed :=
  s.enterRun_moves.fixed.trans s.modesTaken_fixed

theorem State.enterRun_setup (s : State) : s.enterRun.setup = s.modesTaken.setup := by
  have standing : ∀ (u : State) p, (u.isolateStanding p).setup = u.setup := fun u p => by
    simp [State.isolateStanding, apply_ite State.setup]
  have shed : ∀ (u : State) ps, (u.shedAtTier4 ps).setup = u.setup := fun u ps => by
    unfold State.shedAtTier4
    split
    · exact foldl_keeps (read := State.setup) State.doShedAtOnce_setup ps u
    · rfl
  rw [s.enterRun_eq, State.settleEvent_setup, shed, State.standingIsolated, foldl_keeps (read := State.setup) standing,
    State.levelAskAll_setup]

/-! ### Ports and cells -/

theorem State.portsServed_port (s : State) (p : PortNo) :
    s.portsServed.port p = if s.engine.fits p then (s.port p).entered .inService else s.port p := by
  obtain ⟨-, ports⟩ := foldl_ports (f := fun u p => u.enter p .inService) (g := fun _ r => r.entered .inService)
    (P := fun _ => True) (Q := fun _ => True) (fun u x _ _ => ⟨trivial, u.enterAs_ptc x _ _⟩) s.nodup_configuredPorts
    (s := s.setCsu { s.csu with state := .run }) trivial fun _ _ => trivial
  exact (ports p).trans (by simp only [s.mem_configuredPorts]; rfl)

/-- The taking of the modes changes the cells alone. -/
theorem foldl_takeModes_eq (ps : List PortNo) (s : State) :
    ps.foldl State.takeModes s = s.setLeu { s.leu with ports := (ps.foldl State.takeModes s).leu.ports } := by
  induction ps generalizing s with
  | nil => rfl
  | cons p ps ih =>
    rw [List.foldl_cons, ih (s.takeModes p)]
    rfl

theorem State.modesTaken_eq (s : State) :
    s.modesTaken = s.portsServed.setLeu { s.portsServed.leu with ports := s.modesTaken.leu.ports } :=
  foldl_takeModes_eq _ _

theorem State.modesTaken_port (s : State) (p : PortNo) : s.modesTaken.port p = s.portsServed.port p :=
  State.port_of_ptc (by rw [s.modesTaken_eq]; rfl) p

/-- R121: without a fitted port before, the configured ports are the fitted ones. -/
theorem State.enterRun_fitted {s : State} (unfitted : ∀ p, (s.port p).state = .unfitted) (p : PortNo) :
    s.enterRun.fitted p = s.engine.fits p := by
  rw [State.fitted_of_setup s.enterRun_setup, State.fitted, s.modesTaken_port, s.portsServed_port]
  cases s.engine.fits p <;> simp [unfitted, PortRecord.entered]

/-- The setting of one condition. -/
def PortPart.setting (x : PortPart) : Condition → CellSetting
  | .link => x.link
  | .fvd => x.fvd
  | .gflt => x.gflt

theorem State.takeModes_settings (s : State) (p : PortNo) :
    (s.takeModes p).settings = Function.update s.settings p (s.part p).setting := by
  refine (s.setLine_settings p _).trans (congrArg _ (funext fun c => ?_))
  cases c <;> rfl

theorem foldl_takeModes_settings (ps : List PortNo) (s : State) (p : PortNo) :
    (ps.foldl State.takeModes s).settings p = if p ∈ ps then (s.part p).setting else s.settings p := by
  induction ps generalizing s with
  | nil => rfl
  | cons x ps ih =>
    rw [List.foldl_cons, ih, show (s.takeModes x).part = s.part from rfl, s.takeModes_settings]
    by_cases own : p = x
    · subst own
      simp
    · simp [own]

theorem State.enter_settings (s : State) (p : PortNo) (st : PortState) : (s.enter p st).settings = s.settings :=
  (State.settings_of_setup (s.enterAs_setup_eq p _ st)).trans (by
    show (if st ≠ .inTest then s.openFrontEnd p else s).settings = s.settings
    split
    · exact State.settings_of_setup (s.openFrontEnd_setup p)
    · rfl)

theorem State.portsServed_settings (s : State) : s.portsServed.settings = s.settings :=
  foldl_keeps (read := State.settings) (fun u p => u.enter_settings p _) _ _

/-- R123: the configured ports' cells have the settings of the image. -/
theorem State.modesTaken_settings (s : State) (p : PortNo) :
    s.modesTaken.settings p = if s.engine.fits p then (s.part p).setting else s.settings p := by
  have csu : s.portsServed.csu = { s.csu with state := .run } := congrArg State.csu s.portsServed_fixed
  have part : s.portsServed.part p = s.part p := by simp only [State.part, csu]
  rw [State.modesTaken, foldl_takeModes_settings, part, s.portsServed_settings]
  simp only [s.mem_configuredPorts]

theorem State.enterRun_settings {s : State} {p : PortNo} {part : PortPart} (fits : s.engine.fits p = true)
    (present : tget s.csu.ports p = some part) (c : Condition) : s.enterRun.settings p c = part.setting c := by
  rw [State.settings_of_setup s.enterRun_setup, s.modesTaken_settings, if_pos fits, State.part, present]
  rfl

/-! ### The entry without level cells -/

/-- No cell is a level cell. -/
def State.NoLevels (s : State) : Prop := ∀ p c, (s.cell p c).mode.isLevel = false

theorem State.NoLevels.of_aside {s t : State} (silent : s.NoLevels) (same : t.aside = s.aside) : t.NoLevels := fun p c => by
  rw [State.cell_of_aside same]
  exact silent p c

/-- R130: without level cells none asks. -/
theorem State.NoLevels.levelAskAll_eq {s : State} (silent : s.NoLevels) : s.levelAskAll = s := by
  have none : (s.cellsWhere fun _ _ x => x.mode.isLevel) = [] := by
    simp [State.cellsWhere, silent _ _]
  rw [State.levelAskAll, none]
  rfl

theorem State.NoLevels.portsServed_aside {s : State} (silent : s.NoLevels) :
    s.portsServed.aside = (s.setCsu { s.csu with state := .run }).aside := by
  let w := s.setCsu { s.csu with state := .run }
  exact List.foldlRecOn (motive := fun u : State => u.aside = w.aside) _ _ rfl fun u same p _ =>
    (State.enterAs_aside (silent.of_aside (s := w) same p .link) _ _).trans same

/-- R131: the record of a port IN SERVICE after the isolation of a standing foreign voltage. -/
def PortRecord.standing (fvd : Bool) (r : PortRecord) : PortRecord :=
  if fvd then (r.isolateWith .inService).entered .isolated else r

theorem State.isolateStanding_of_inService {s : State} {p : PortNo} (edge : (s.cell p .link).mode.isLevel = false)
    (serves : (s.port p).state = .inService) : (s.isolateStanding p).aside = s.aside ∧
      (s.isolateStanding p).ptc = tput s.ptc p ((s.port p).standing (s.line p).fvdLevel) := by
  unfold State.isolateStanding PortRecord.standing
  split
  · obtain ⟨m, same⟩ := (s.enterAs p ((s.port p).isolateWith .inService) .isolated).enforceSource_same
    have isolated : s.doIsolate p = (s.enterAs p ((s.port p).isolateWith .inService) .isolated).enforceSource := by
      simp [State.doIsolate, State.isolate, serves]
    rw [isolated, State.enforceSource_aside, State.enterAs_aside edge, same]
    exact ⟨rfl, s.enterAs_ptc p _ _⟩
  · exact ⟨rfl, by simp [State.port, tput, tget]⟩

/-- R117: the record of a port IN SERVICE or ISOLATED after a shed at once. -/
def PortRecord.shedNow (r : PortRecord) : PortRecord :=
  if r.state = .inService then r.entered .off else { r with returnState := some .off }

theorem State.doShedAtOnce_of_noTest {s : State} {p : PortNo} (edge : (s.cell p .link).mode.isLevel = false)
    (standing : (s.port p).state = .inService ∨ (s.port p).state = .isolated) : (s.doShedAtOnce p).aside = s.aside ∧
      (s.doShedAtOnce p).ptc = tput s.ptc p (s.port p).shedNow := by
  obtain serves | isolated := standing
  · have shed : s.doShedAtOnce p = s.enter p .off := by simp [State.doShedAtOnce, State.shedAtOnce, serves]
    rw [shed, PortRecord.shedNow, if_pos serves]
    exact ⟨State.enterAs_aside edge _ _, s.enterAs_ptc p _ _⟩
  · have shed : s.doShedAtOnce p = s.setReturn p (some .off) := by
      simp [State.doShedAtOnce, State.shedAtOnce, isolated]
    rw [shed, PortRecord.shedNow, if_neg (by simp [isolated])]
    exact ⟨rfl, rfl⟩

/-- R123: after the taking of the modes there is still no level cell, where neither the cells nor the image has one. -/
theorem State.NoLevels.modesTaken {s : State} (silent : s.NoLevels)
    (image : ∀ p part, tget s.csu.ports p = some part → ∀ c, (part.setting c).mode.isLevel = false) :
    s.modesTaken.NoLevels := fun p c => by
  have part : ((s.part p).setting c).mode.isLevel = false := by
    unfold State.part
    cases present : tget s.csu.ports p with
    | none => cases c <;> rfl
    | some part => exact image p part present c
  have setting : ((s.modesTaken.settings p) c).mode.isLevel = false := by
    rw [s.modesTaken_settings]
    split
    · exact part
    · exact silent p c
  exact setting

theorem State.fvdLevel_of_fixed {s t : State} (same : t.fixed = s.fixed) (p : PortNo) :
    (t.line p).fvdLevel = (s.line p).fvdLevel := by
  have ports : tmap LeuPort.levels t.leu.ports = tmap LeuPort.levels s.leu.ports :=
    congrArg (fun u : State => u.leu.ports) same
  have entry := congrArg (fun v => (tget v p).fvdLevel) ports
  simp only [tget_tmap] at entry
  exact entry

/-- R117, R121, R131: the record of a configured port after the entry to RUN. -/
def State.enteredRecord (s : State) (p : PortNo) : PortRecord :=
  let r := ((s.port p).entered .inService).standing (s.line p).fvdLevel
  if s.pmg.tier = 4 then r.shedNow else r

/-- R121, R131, R177: a port that was UNFITTED is then IN SERVICE, OFF or ISOLATED, with its link down. -/
theorem State.enteredRecord_eq {s : State} {p : PortNo} (unfitted : (s.port p).state = .unfitted) :
    (s.enteredRecord p).link = false ∧ (s.enteredRecord p).state =
      if (s.line p).fvdLevel then .isolated else if s.pmg.tier = 4 then .off else .inService := by
  unfold State.enteredRecord PortRecord.standing PortRecord.shedNow
  by_cases fvd : (s.line p).fvdLevel = true <;> by_cases worst : s.pmg.tier = 4 <;>
    simp [fvd, worst, PortRecord.entered, PortRecord.isolateWith, linkAfter, unfitted, PortState.serving]

section
variable {s : State} (silent : s.modesTaken.NoLevels)
include silent

/-- R131: the isolations reach nothing but their ports. -/
theorem State.standingIsolated_quietly : s.standingIsolated.aside = s.modesTaken.aside ∧ ∀ p,
    s.engine.fits p = true → s.standingIsolated.port p = ((s.port p).entered .inService).standing (s.line p).fvdLevel := by
  have serving : ∀ p, s.engine.fits p = true → s.modesTaken.port p = (s.port p).entered .inService := fun p fits => by
    rw [s.modesTaken_port, s.portsServed_port, if_pos fits]
  have each : ∀ (u : State) x, u.aside = s.modesTaken.aside → (u.port x).state = .inService →
      (u.isolateStanding x).aside = s.modesTaken.aside ∧ (u.isolateStanding x).ptc =
        tput u.ptc x ((u.port x).standing (s.line x).fvdLevel) := fun u x same serves => by
    obtain ⟨kept, ptc⟩ := State.isolateStanding_of_inService (silent.of_aside same x .link) serves
    rw [State.fvdLevel_of_aside same, State.fvdLevel_of_fixed s.modesTaken_fixed] at ptc
    exact ⟨kept.trans same, ptc⟩
  obtain ⟨kept, ports⟩ := foldl_ports (g := fun x r => r.standing (s.line x).fvdLevel)
    (P := fun u => u.aside = s.modesTaken.aside) (Q := fun r => r.state = .inService) each s.nodup_configuredPorts rfl
    fun p member => by rw [serving p ((s.mem_configuredPorts p).mp member)]; rfl
  rw [State.standingIsolated, silent.levelAskAll_eq]
  refine ⟨kept, fun p fits => ?_⟩
  rw [ports, if_pos ((s.mem_configuredPorts p).mpr fits), serving p fits]

/-- R177: nor do the sheds at once. -/
theorem State.shedAtTier4_quietly : (s.standingIsolated.shedAtTier4 s.configuredPorts).aside = s.modesTaken.aside ∧ ∀ p,
    s.engine.fits p = true → (s.standingIsolated.shedAtTier4 s.configuredPorts).port p = s.enteredRecord p := by
  obtain ⟨kept, records⟩ := State.standingIsolated_quietly silent
  have isolated := congrArg (fun u : State => u.pmg.tier) kept
  have taken := congrArg (fun u : State => u.pmg.tier) s.modesTaken_fixed
  have tier : s.standingIsolated.pmg.tier = s.pmg.tier := isolated.trans taken
  unfold State.shedAtTier4 State.enteredRecord
  rw [tier]
  split
  case isFalse => exact ⟨kept, records⟩
  case isTrue =>
    have each : ∀ (u : State) x, u.aside = s.modesTaken.aside →
        (u.port x).state = .inService ∨ (u.port x).state = .isolated →
        (u.doShedAtOnce x).aside = s.modesTaken.aside ∧ (u.doShedAtOnce x).ptc = tput u.ptc x (u.port x).shedNow :=
      fun u x same standing => by
        obtain ⟨same', ptc⟩ := State.doShedAtOnce_of_noTest (silent.of_aside same x .link) standing
        exact ⟨same'.trans same, ptc⟩
    obtain ⟨kept, ports⟩ := foldl_ports (g := fun _ r => r.shedNow) (P := fun u => u.aside = s.modesTaken.aside)
      (Q := fun r => r.state = .inService ∨ r.state = .isolated) each s.nodup_configuredPorts kept fun p member => by
        rw [records p ((s.mem_configuredPorts p).mp member), PortRecord.standing]
        split
        · exact .inr rfl
        · exact .inl rfl
    refine ⟨kept, fun p fits => ?_⟩
    rw [ports, if_pos ((s.mem_configuredPorts p).mpr fits), records p fits]

/-- R180: with no level cell and nothing left over, the entry to RUN offers no message and asks for no test. -/
theorem State.enterRun_quietly (settled : s.modesTaken.settled = true) : s.enterRun.aside = s.modesTaken.aside ∧ ∀ p,
    s.engine.fits p = true → s.enterRun.port p = s.enteredRecord p := by
  obtain ⟨kept, records⟩ := State.shedAtTier4_quietly silent
  have closed : s.enterRun = s.standingIsolated.shedAtTier4 s.configuredPorts :=
    State.settleEvent_of _ ((congrArg State.settled kept).trans settled)
  rw [closed]
  exact ⟨kept, records⟩

end

/-- R123: the taking of the modes and the entries before it leave the peer bus, the tests, the claims and what is left over
of an event as they are. -/
theorem State.NoLevels.modesTaken_frame {s : State} (silent : s.NoLevels) :
    s.modesTaken.pbi = s.pbi ∧ s.modesTaken.tsq = s.tsq ∧ s.modesTaken.pvu = s.pvu ∧
      s.modesTaken.settled = s.settled := by
  rw [s.modesTaken_eq]
  have served := State.frame_of_aside silent.portsServed_aside
  exact served

end Sys2Proof.Machine
end

section
/-!
CONFIGURE (R179, R180): when a part is bad, what is stored of it, when the image is complete, and the entry to RUN with
it.
-/
namespace Sys2Proof.Machine

/-! ### The codes and the image -/

theorem senseModeOf_of_above {b : Byte} (above : 6 ≤ b.toNat) : senseModeOf b = none := by
  unfold senseModeOf
  split
  case h_7 => rfl
  all_goals omega

theorem classOf_of_above {b : Byte} (above : 3 ≤ b.toNat) : classOf b = none := by
  unfold classOf
  split
  case h_4 => rfl
  all_goals omega

theorem classOf_of_code {b : Byte} {c : PortClass} (code : b.toNat = c.code) : classOf b = some c := by
  unfold classOf
  rw [code]
  cases c <;> rfl

/-- R180: a complete image has an engine part and a part for each port it names as fitted. -/
theorem Csu.complete_iff (c : Csu) : c.complete = true ↔
    ∃ e, c.engine = some e ∧ ∀ p : PortNo, e.fitted.getLsbD p.val = true → (tget c.ports p).isSome = true := by
  unfold Csu.complete
  split
  next e engine => simp [engine, mem_allPorts, EnginePart.fits, imp_iff_not_or]
  next engine => simp [engine]

end Sys2Proof.Machine

namespace Sys2Proof

open Machine

/-! ### Bad parts -/

theorem EngineFields.bad_iff (f : EngineFields) : f.bad = true ↔
    ¬ (f.vb.toNat < f.va.toNat ∧ f.vc.toNat < f.vb.toNat ∧ f.b2.toNat ≤ f.b1.toNat ∧ f.fitted.toNat < 4096) := by
  simp only [EngineFields.bad, Bool.or_eq_true, Bool.not_eq_true', Bool.and_eq_false_iff, decide_eq_true_eq,
    decide_eq_false_iff_not]
  omega

/-- R179: a port part with a value outside its list is bad. -/
theorem PortFields.clamped_of_bad {f : PortFields} (bad : 12 ≤ f.port.toNat ∨ 8 ≤ f.binder.toNat ∨ 3 ≤ f.cls.toNat ∨
    6 ≤ f.linkMode.toNat ∨ 6 ≤ f.fvdMode.toNat ∨ 6 ≤ f.gfltMode.toNat) : f.clamped = none := by
  unfold PortFields.clamped
  obtain port | binder | cls | link | fvd | gflt := bad
  · simp [portOf, Nat.not_lt.mpr port]
  · simp [binderNoOf, Nat.not_lt.mpr binder]
  · simp [classOf_of_above cls]
  · simp [senseModeOf_of_above link]
  · simp [senseModeOf_of_above fvd]
  · simp [senseModeOf_of_above gflt]

end Sys2Proof

namespace Sys2Proof.Machine

/-! ### An accepted part -/

/-- R9: outside CONFLICT an offer reaches the transmit queue. -/
theorem State.offer_of_notConflict {s : State} (talks : s.csu.state ≠ .conflict) (m : Message) :
    s.offer m = s.setPbi (s.pbi.offer m false) := if_neg talks

theorem State.runIfComplete_of_complete {s : State} (complete : s.csu.complete = true) : s.runIfComplete = s.enterRun :=
  if_pos complete

theorem State.runIfComplete_of_incomplete {s : State} (incomplete : ¬ s.csu.complete = true) : s.runIfComplete = s :=
  if_neg incomplete

theorem State.unfitted_of_unfittedOk {s : State} (unconfigured : s.csu.state = .unconfigured) (ok : s.unfittedOk = true)
    (p : PortNo) : (s.port p).state = .unfitted := by
  simp only [State.unfittedOk, unconfigured, ne_eq, not_true_eq_false, decide_false, Bool.false_or] at ok
  exact of_decide_eq_true (allPorts_all.mp ok p)

section
variable {s : State} {e : EnginePart} (engine : s.csu.engine = some e)
include engine

theorem State.fits_of_engine (p : PortNo) : s.engine.fits p = e.fitted.getLsbD p.val := by
  rw [State.engine, engine]
  rfl

variable (unfitted : ∀ p, (s.port p).state = .unfitted)
include unfitted

/-- R121, R123: the ports and the cells as configured. -/
theorem State.enterRun_configured (p : PortNo) :
    (e.fitted.getLsbD p.val = false → (s.enterRun.port p).state = .unfitted) ∧
    ∀ part, e.fitted.getLsbD p.val = true → tget s.csu.ports p = some part →
      (s.enterRun.port p).state ≠ .unfitted ∧ ∀ c, (s.enterRun.cell p c).mode = (part.setting c).mode ∧
        (s.enterRun.cell p c).priority = (part.setting c).priority := by
  have fitted := (State.enterRun_fitted unfitted p).trans (State.fits_of_engine engine p)
  refine ⟨fun out => ?_, fun part named present => ⟨?_, fun c => ?_⟩⟩
  · rw [out] at fitted
    exact Decidable.not_not.mp (of_decide_eq_false fitted)
  · exact (State.fitted_iff _ p).mp (fitted.trans named)
  · have setting := State.enterRun_settings ((State.fits_of_engine engine p).trans named) present c
    exact ⟨congrArg CellSetting.mode setting, congrArg CellSetting.priority setting⟩

/-- R131, R177, R180: where no cell is a level cell, nothing is offered or asked for, and each configured port's state
follows from its foreign voltage and the tier. -/
theorem State.enterRun_of_noLevels (settled : s.settled = true) (silent : s.NoLevels)
    (image : ∀ p part, tget s.csu.ports p = some part → ∀ c, (part.setting c).mode.isLevel = false) :
    s.enterRun.pbi = s.pbi ∧ s.enterRun.tsq = s.tsq ∧ s.enterRun.pvu = s.pvu ∧
      ∀ p : PortNo, e.fitted.getLsbD p.val = true → (s.enterRun.port p).link = false ∧ (s.enterRun.port p).state =
        if (s.line p).fvdLevel then .isolated else if s.pmg.tier = 4 then .off else .inService := by
  obtain ⟨pbi, tsq, pvu, closed⟩ := silent.modesTaken_frame
  obtain ⟨kept, records⟩ := State.enterRun_quietly (silent.modesTaken image) (closed.trans settled)
  obtain ⟨pbi', tsq', pvu', -⟩ := State.frame_of_aside kept
  refine ⟨pbi'.trans pbi, tsq'.trans tsq, pvu'.trans pvu, fun p named => ?_⟩
  rw [records p ((State.fits_of_engine engine p).trans named)]
  exact State.enteredRecord_eq (unfitted p)

end

/-- Settles O58: the answer is a case of the model's own order of checks, and an accepted part makes the image complete or
not. A complete image enters RUN, where `State.enterRun_fixed` is the frame, `State.enterRun_configured` the ports and
cells, and `State.enterRun_of_noLevels` what holds without level cells. -/
theorem configureStoresThePart : Obligations.ConfigureStoresThePart := by
  intro s src tag station answer stored
  have stores : ∀ request csu, s.csu.state = .unconfigured → csu.state = .unconfigured →
      stored request csu (.next ((s.setCsu csu).answer src request tag .accepted 0).runIfComplete) := by
    intro request csu before unconfigured
    let b := s.pbi.offer (.answer src request tag .accepted 0) false
    let u := (s.setCsu csu).setPbi b
    have offered : (s.setCsu csu).answer src request tag .accepted 0 = u :=
      State.offer_of_notConflict (by simp [unconfigured]) _
    have answered : (answer s request .accepted).pbi = b :=
      congrArg State.pbi (State.offer_of_notConflict (by simp [before]) _)
    refine ⟨fun incomplete => ?_, fun e engine complete => ?_⟩
    · rw [← csu.complete_iff] at incomplete
      rw [offered, State.runIfComplete_of_incomplete (s := u) incomplete, ← offered]
      rfl
    · rw [offered, State.runIfComplete_of_complete (s := u) (csu.complete_iff.mpr ⟨e, engine, complete⟩), answered]
      have unfitted := State.unfitted_of_unfittedOk (s := s) before
      have frame := u.enterRun_fixed
      have state := congrArg State.csu frame
      have counter := congrArg (fun t : State => t.uls.f) frame
      have sync := congrArg (fun t : State => t.uls.sync) frame
      refine ⟨u.enterRun, rfl, state, counter, sync, fun ok p => ?_, fun settled ok image silent => ?_⟩
      · obtain ⟨out, named⟩ := State.enterRun_configured (s := u) engine (unfitted ok) p
        refine ⟨out, fun part fitted present => ?_⟩
        obtain ⟨serves, cells⟩ := named part fitted present
        exact ⟨serves, cells .link, cells .fvd, cells .gflt⟩
      · refine State.enterRun_of_noLevels (s := u) engine (unfitted ok) settled silent fun p part present c => ?_
        obtain ⟨link, fvd, gflt⟩ := image p part present
        cases c
        · exact link
        · exact fvd
        · exact gflt
  refine ⟨fun f => ?_, fun f => ?_⟩
  · intro result right
    have configured : result = .next (s.configureEngine src tag f) := congrArg Host.Outcome.next (if_pos station)
    rw [configured, State.configureEngine]
    refine ⟨fun already => by rw [if_pos already]; rfl, fun fresh bad => ?_, fun fresh good => ?_⟩
    · rw [if_neg (not_not.mpr fresh), if_pos (f.bad_iff.mpr bad)]
      rfl
    · rw [if_neg (not_not.mpr fresh), if_neg fun bad => f.bad_iff.mp bad good]
      exact stores 13 _ fresh fresh
  · intro result
    have configured : result = .next (s.configurePort src tag f) := congrArg Host.Outcome.next (if_pos station)
    rw [configured, State.configurePort]
    refine ⟨fun already => by rw [if_pos already]; rfl, fun fresh bad => ?_,
      fun fresh p b c l v g port binder cls link fvd gflt => ?_⟩
    · rw [if_neg (not_not.mpr fresh), PortFields.clamped_of_bad bad]
      rfl
    · have portOf : portOf f.port = some p := by simp [portOf, port]
      have binderOf : binderNoOf f.binder = some b := by simp [binderNoOf, binder]
      rw [if_neg (not_not.mpr fresh), PortFields.clamped, portOf, binderOf, classOf_of_code cls, link, fvd, gflt]
      exact stores 141 _ fresh fresh

end Sys2Proof.Machine
end
